-- ==== Sys2Proof/Word.lean ====
section
/-! DEFINITION. The words of CGOL-CORE: widths as `00_scope.md` R8 and R9 and
`30_encoding.md` R90 to R94 and R108 give them. -/

namespace Sys2Proof

/-- A command word or a response word (R90, R108). -/
abbrev Word := BitVec 32

/-- The value of a successful response, bits 30:0 (R108). -/
abbrev Payload := BitVec 31

/-- One character of a word given to the loader (R212). -/
abbrev Byte := BitVec 8

/-- One row register of GRID: bit `c` is the cell in column `c` (R21, R67). -/
abbrev Row := BitVec 60

/-- The `row` and `col` fields of a command word (R92, R94). -/
abbrev CellField := BitVec 6

/-- The `reg` field of a command word (R93, R94). -/
abbrev RegField := BitVec 4

end Sys2Proof
end

