-- ==== Sys2Proof/Syntax.lean ====
section
/-! DEFINITION. The eight commands (`30_encoding.md` R95), the three command errors
(`60_exceptions.md` R242) and the register names (`10_state.md` R41). -/

namespace Sys2Proof

/-- One command of the block, one constructor per row of the opcode table. The fields are those of
the command word, as they stand (R94): a field may name no cell or no register, and the command
then raises BAD_ADDR or BAD_REG (R99). -/
inductive Instr where
  /-- NOP (R121). -/
  | nop
  /-- CLR, make every cell dead (R122). -/
  | clr
  /-- SETC r, c, v: write one cell; `v` is true for 1, alive (R123). -/
  | setc (row col : CellField) (v : Bool)
  /-- RDC r, c: read one cell (R124). -/
  | rdc (row col : CellField)
  /-- NCNT r, c: read the neighbour count of one cell (R155). -/
  | ncnt (row col : CellField)
  /-- STEP: replace the grid by its next generation (R157). -/
  | step
  /-- RUN: run the automaton to a terminal condition (R170). -/
  | run
  /-- RDREG n: read one register (R125). -/
  | rdreg (reg : RegField)
  deriving DecidableEq, Repr

/-- The command errors. An error is a response value, not a transfer of control (R241, R242). -/
inductive CommandError where
  /-- ILLEGAL: a reserved opcode, or a must-be-zero bit that is 1 (R243). -/
  | illegal
  /-- BAD_ADDR: a cell address outside the grid (R244). -/
  | badAddr
  /-- BAD_REG: a register number with no register (R245). -/
  | badReg
  deriving DecidableEq, Repr

/-- The registers RDREG reads, by name (R41). -/
inductive RegName where
  | config
  | status
  | gen
  | score
  | hcnt
  | pop
  deriving DecidableEq, Repr

end Sys2Proof
end

