-- ==== Sys2Proof/WellFormed.lean ====
section
/-! DEFINITION. Which commands name cells and registers that exist: the commands in range of
`30_encoding.md` R100 and R105. An ill-formed command is still decoded and executed: it raises
BAD_ADDR or BAD_REG. -/

namespace Sys2Proof

/-- The fields name a cell: `row < 40` and `col < 60` (R68, R73). -/
def cellInRange (row col : CellField) : Bool :=
  decide (row.toNat < 40) && decide (col.toNat < 60)

/-- The field names a register: `reg < 6` (R41, R73). -/
def regInRange (reg : RegField) : Bool :=
  decide (reg.toNat < 6)

/-- Every operand of the command is in range (R99, R100). -/
def Instr.wellFormed : Instr → Bool
  | .nop => true
  | .clr => true
  | .setc row col _ => cellInRange row col
  | .rdc row col => cellInRange row col
  | .ncnt row col => cellInRange row col
  | .step => true
  | .run => true
  | .rdreg reg => regInRange reg

end Sys2Proof
end

