-- ==== Sys2Proof/Decode.lean ====
section
/-! DEFINITION. From command words to commands and back: `30_encoding.md` R90 to R102. -/

namespace Sys2Proof

/-- `op = cmd[31:28]` (R90, R94). -/
def opField (cmd : Word) : BitVec 4 := cmd.extractLsb' 28 4

/-- `row = cmd[27:22]` (R92, R94). -/
def rowField (cmd : Word) : CellField := cmd.extractLsb' 22 6

/-- `col = cmd[21:16]` (R92, R94). -/
def colField (cmd : Word) : CellField := cmd.extractLsb' 16 6

/-- `v = cmd[0]` (R92, R94). -/
def vField (cmd : Word) : Bool := cmd.getLsbD 0

/-- `reg = cmd[27:24]` (R93, R94). -/
def regField (cmd : Word) : RegField := cmd.extractLsb' 24 4

/-- The decode checks of R96 that raise ILLEGAL, in the order written: a reserved opcode (R97), then
the must-be-zero bits of the opcode's format (R98). -/
def illegalWord (cmd : Word) : Bool :=
  let op := (opField cmd).toNat
  if 8 ≤ op then true
  else if op = 0 ∨ op = 1 ∨ op = 5 ∨ op = 6 then cmd.extractLsb' 0 28 != 0
  else if op = 2 then cmd.extractLsb' 1 15 != 0
  else if op = 3 ∨ op = 4 then cmd.extractLsb' 0 16 != 0
  else cmd.extractLsb' 0 24 != 0

/-- The command a word's opcode names, with the word's fields (R95). Opcodes 8 to 15 name none. -/
def namedCommand (cmd : Word) : Option Instr :=
  match (opField cmd).toNat with
  | 0 => some .nop
  | 1 => some .clr
  | 2 => some (.setc (rowField cmd) (colField cmd) (vField cmd))
  | 3 => some (.rdc (rowField cmd) (colField cmd))
  | 4 => some (.ncnt (rowField cmd) (colField cmd))
  | 5 => some .step
  | 6 => some .run
  | 7 => some (.rdreg (regField cmd))
  | _ => none

/-- The decoder, total on every word (R105): ILLEGAL, or the command the word spells. The range checks
of R96 come after these and belong to the commands themselves (`Machine/Operands.lean`). -/
def decode (cmd : Word) : Except CommandError Instr :=
  if illegalWord cmd then .error .illegal
  else
    match namedCommand cmd with
    | some i => .ok i
    | none => .error .illegal

/-- The encoder, `enc` of R102. -/
def encode : Instr → Word
  | .nop => 0x00000000
  | .clr => 0x10000000
  | .setc row col v =>
      BitVec.ofNat 32 (0x20000000 + row.toNat * 2 ^ 22 + col.toNat * 2 ^ 16 + v.toNat)
  | .rdc row col => BitVec.ofNat 32 (0x30000000 + row.toNat * 2 ^ 22 + col.toNat * 2 ^ 16)
  | .ncnt row col => BitVec.ofNat 32 (0x40000000 + row.toNat * 2 ^ 22 + col.toNat * 2 ^ 16)
  | .step => 0x50000000
  | .run => 0x60000000
  | .rdreg reg => BitVec.ofNat 32 (0x70000000 + reg.toNat * 2 ^ 24)

/-- One row of the opcode map: a word spells the row's command when `cmd AND mask = bits` (R95). -/
structure OpcodeRow where
  mnemonic : String
  bits : Word
  mask : Word
  deriving DecidableEq, Repr

/-- The opcode map of R95 as the spec prints it. -/
def opcodeMap : List OpcodeRow :=
  [ ⟨"NOP", 0x00000000, 0xFFFFFFFF⟩,
    ⟨"CLR", 0x10000000, 0xFFFFFFFF⟩,
    ⟨"SETC", 0x20000000, 0xF000FFFE⟩,
    ⟨"RDC", 0x30000000, 0xF000FFFF⟩,
    ⟨"NCNT", 0x40000000, 0xF000FFFF⟩,
    ⟨"STEP", 0x50000000, 0xFFFFFFFF⟩,
    ⟨"RUN", 0x60000000, 0xFFFFFFFF⟩,
    ⟨"RDREG", 0x70000000, 0xF0FFFFFF⟩ ]

/-- Whether a word lies under a row of the opcode map (R95). -/
def OpcodeRow.spells (r : OpcodeRow) (cmd : Word) : Bool :=
  cmd &&& r.mask == r.bits

/-- The mnemonic of a command (R95). -/
def Instr.mnemonic : Instr → String
  | .nop => "NOP"
  | .clr => "CLR"
  | .setc _ _ _ => "SETC"
  | .rdc _ _ => "RDC"
  | .ncnt _ _ => "NCNT"
  | .step => "STEP"
  | .run => "RUN"
  | .rdreg _ => "RDREG"

/-- The instruction the decoder reads from the low `nbits` bits of `w`, every bit above them zero. A
command is one 32-bit word, so the table's bit numbers are the word's own. -/
def decodeTableWord (nbits w : Nat) : Option Instr :=
  match decode (BitVec.ofNat 32 (w % 2 ^ nbits)) with
  | .ok i => some i
  | .error _ => none

end Sys2Proof
end

