-- ==== Sys2Proof/Config.lean ====
section
/-! DEFINITION. What is fixed for the machine (`00_scope.md` R8, R9, R33) and the values
the spec leaves open, as constants with no body. -/

namespace Sys2Proof

/-- Columns of the grid (R8). -/
abbrev Config.width : Nat := 60

/-- Rows of the grid (R8). -/
abbrev Config.height : Nat := 40

/-- Bound of the run loop (R8, R187). -/
abbrev Config.maxGenerations : Nat := 1000

/-- The version of the command set (R1, R33). -/
abbrev Config.version : Nat := 1

/-- CONFIG, register 0: a hardwired constant made of the fixed parameters (R33). -/
def Config.configValue : Payload :=
  BitVec.ofNat 31
    (Config.version * 2 ^ 26 + Config.maxGenerations * 2 ^ 16 + Config.height * 2 ^ 8 + Config.width)

/-- OPEN PARAMETER `narrow` of the loader (R10, R212, U1, D20): the byte of a character whose code
does not fit in 8 bits. No body: a claim that uses it holds whatever it is. Log entry 8. -/
opaque Config.narrow : Nat → Byte

/-- FREE VALUE (R290, U10): how many clocks pass, beyond the first, between the acceptance of a
command and its response (that the first always passes is the model's choice, see `clockEdge`), for the `n`-th command accepted, its word, and GRID flattened when it is
accepted, so that RUN's clocks may follow its seed. DESIGN CHOICE: they depend on nothing else, where the
spec leaves them free; two commands alike in all three have equal clocks in the model. Log entry 10. -/
opaque Config.latency (n : Nat) (word : Word) (grid : BitVec 2400) : Nat

/-- FREE VALUE (R290, U10): how many clocks pass between the response of the `n`-th command accepted and
`cmd_ready` being 1 again, by its word and GRID flattened when it was accepted. DESIGN CHOICE: they
depend on nothing else. Log entry 10. -/
opaque Config.recovery (n : Nat) (word : Word) (grid : BitVec 2400) : Nat

end Sys2Proof
end

