-- ==== Sys2Proof/Machine/Grid.lean ====
section
/-! DEFINITION. Grid values: `00_scope.md` R14, `10_state.md` R20 to R23, `20_memory.md` R66, R67.
A grid is forty 60-bit row registers; every reader goes through `Grid.cell`. -/

namespace Sys2Proof.Machine

/-- A grid value: the row registers ROW[0] to ROW[39] (R21). -/
structure Grid where
  rows : Vector Row 40
  deriving DecidableEq, Repr

/-- The number below `2 ^ n` whose bit `i` is `f i` for `i < n`. -/
def bitsOf (f : Nat → Bool) : Nat → Nat
  | 0 => 0
  | n + 1 => bitsOf f n ||| ((f n).toNat <<< n)

/-- The row whose cell in column `c` is `f c` (R67). -/
def rowOf (f : Nat → Bool) : Row := BitVec.ofNat 60 (bitsOf f 60)

/-- The sum of `f 0` to `f (n - 1)`. -/
def sumTo (f : Nat → Nat) : Nat → Nat
  | 0 => 0
  | n + 1 => sumTo f n + f n

/-- DEAD: the grid with every cell 0 (R14). -/
def Grid.dead : Grid := ⟨Vector.replicate 40 0⟩

/-- ROW[r]; no row register beyond 39 exists, and such a row reads as no alive cell (R21, R69). -/
def Grid.row (g : Grid) (r : Nat) : Row := g.rows[r]?.getD 0

/-- `g[r][c]`, true for alive; a position beyond the grid is never alive (R14, R69). -/
def Grid.cell (g : Grid) (r c : Nat) : Bool := (g.row r).getLsbD c

/-- The grid `h` with `h[r][c] = f r c`: all 2400 cells at once (R14, R23). -/
def Grid.ofFn (f : Nat → Nat → Bool) : Grid := ⟨Vector.ofFn fun r => rowOf (f r.val)⟩

/-- `g[r][c] <- v`; every other cell keeps its value (R15, R123). -/
def Grid.setCell (g : Grid) (r c : Nat) (v : Bool) : Grid :=
  ⟨g.rows.setIfInBounds r (rowOf fun x => if x = c then v else g.cell r x)⟩

/-- `Flat(g)`: bit `60 * r + c` is `g[r][c]` (R66). -/
def Grid.flat (g : Grid) : BitVec 2400 :=
  BitVec.ofNat 2400 (bitsOf (fun i => g.cell (i / 60) (i % 60)) 2400)

end Sys2Proof.Machine
end

