-- ==== Sys2Proof/Machine/Automaton.lean ====
section
/-! DEFINITION. The pure functions of the automaton: `41_neighbor_step.md` R142 to R151. -/

namespace Sys2Proof.Machine

/-- `cell(g, y, x)` of R142, for mathematical integers: a position outside the grid is 0, with no wrap.
A negative coordinate is outside; `Grid.cell` reads nothing beyond row 39 or column 59. -/
def Grid.cellAt (g : Grid) (y x : Int) : Bool :=
  match y, x with
  | .ofNat r, .ofNat c => g.cell r c
  | .ofNat _, .negSucc _ => false
  | .negSucc _, _ => false

/-- `NCount(g, r, c)` of R142: the alive cells among the eight positions of the Moore neighbourhood. -/
def Grid.nCount (g : Grid) (r c : Nat) : Nat :=
  (g.cellAt (r - 1) (c - 1)).toNat + (g.cellAt (r - 1) c).toNat + (g.cellAt (r - 1) (c + 1)).toNat
    + (g.cellAt r (c - 1)).toNat + (g.cellAt r (c + 1)).toNat
    + (g.cellAt (r + 1) (c - 1)).toNat + (g.cellAt (r + 1) c).toNat
    + (g.cellAt (r + 1) (c + 1)).toNat

/-- `Rule(a, n)` of R145, B3/S23. -/
def rule (a : Bool) (n : Nat) : Bool := n == 3 || (a && n == 2)

/-- `Step(g)` of R147: every cell computed from `g` alone (R148). -/
def Grid.next (g : Grid) : Grid := Grid.ofFn fun r c => rule (g.cell r c) (g.nCount r c)

/-- `Pop(g)` of R150: the number of alive cells. -/
def Grid.pop (g : Grid) : Nat := sumTo (fun r => sumTo (fun c => (g.cell r c).toNat) 60) 40

/-- A grid is extinct when it has no alive cell (R151). -/
def Grid.extinct (g : Grid) : Bool := g.pop == 0

end Sys2Proof.Machine
end

