-- ==== Sys2Proof/Machine/State.lean ====
section
/-! DEFINITION. The state of the block (`10_state.md` R24), the host's side of the command port as
plain data, the reasons a step can stop, and the state after reset (R43). -/

namespace Sys2Proof.Machine

/-- STATE, the control state of the sequencer (R26). Value 3 is never held and has no constructor. -/
inductive RunState where
  /-- 0 SEEDED: GRID holds a seed, no run has been made on it. -/
  | seeded
  /-- 1 STEPPING: a run is in progress. -/
  | stepping
  /-- 2 TERMINATED: a run has ended. -/
  | terminated
  deriving DecidableEq, Repr

/-- CAUSE, why the last run ended (R28). Values 5 to 7 are never held and have no constructor. -/
inductive Cause where
  /-- 0 NONE. -/
  | none
  /-- 1 REPEAT. -/
  | repeated
  /-- 2 STABLE. -/
  | stable
  /-- 3 EXTINCT. -/
  | extinct
  /-- 4 MAX. -/
  | max
  deriving DecidableEq, Repr

/-- What the host does next at the port: it presents a command word (R110, R111), or it asserts `rst`
(R270). -/
inductive HostEvent where
  | command (w : Word)
  | reset
  deriving DecidableEq, Repr

/-- The state of the block, with the two lists that stand for the port. -/
structure State where
  /-- GRID (R20). -/
  grid : Grid
  /-- STATE (R26). -/
  state : RunState
  /-- CAUSE (R28). -/
  cause : Cause
  /-- GEN, the generation counter (R29). -/
  gen : BitVec 10
  /-- SCORE, the score accumulator (R30). -/
  score : BitVec 22
  /-- HCNT, the fill count of HIST (R31). -/
  hcnt : BitVec 10
  /-- HIST, the entries that some run has stored since reset, entry 0 first (R35, R37). An entry is
  valid below HCNT. Entries never stored are not listed (R43, U7). Log entry 4. -/
  hist : List Grid
  /-- The model's own: what the host will do at the port, next first (R75, R110). Log entry 1. -/
  commands : List HostEvent
  /-- The model's own: the response words given so far, oldest first (R108, R111). Log entry 2. -/
  responses : List Word
  deriving DecidableEq, Repr

/-- Why the machine stops. The automaton raises nothing and a command error is a response (R240,
R241), so only a state that no run reaches stops. -/
inductive Fault where
  /-- Raised by a sequencer step from a STEPPING state whose GEN, HCNT, HIST and SCORE break the
  bounds of R201 to R203: the spec gives no rule for a full store or a wrapped score, because none
  can happen. SAFE: the model stops where the spec is silent. Log entry 5. -/
  | brokenRun
  deriving DecidableEq, Repr

/-- Why the model gives no meaning. -/
inductive Refusal where
  /-- An instruction with no meaning yet. No arm raises it: every command has its meaning. SAFE. -/
  | notModelled (mnemonic : String)
  deriving DecidableEq, Repr

/-- The state right after reset (R43, R271). HIST: no entry stored (log entry 4). The port: nothing
presented, nothing answered (log entries 1 and 2). -/
def State.reset : State where
  grid := Grid.dead
  state := .seeded
  cause := .none
  gen := 0
  score := 0
  hcnt := 0
  hist := []
  commands := []
  responses := []

end Sys2Proof.Machine
end

