-- ==== Sys2Proof/Machine/Ops.lean ====
section
/-! DEFINITION. The shared operations over the state: answering a command, raising a command error,
writing GRID, the seen store, reset and the outputs of the block. -/

namespace Sys2Proof.Machine

/-- The response word of `respond OK(v)`: bit 31 is 0 (R108). -/
def okWord (v : Payload) : Word := v.setWidth 32

/-- The error codes of R242. -/
def errorCode : CommandError → BitVec 8
  | .illegal => 1
  | .badAddr => 2
  | .badReg => 3

/-- The response word of `raise Err(code)`: `0x80000000 + code` (R108, R241). -/
def errorWord (e : CommandError) : Word := 0x80000000 + (errorCode e).setWidth 32

/-- `respond OK(v)`: the command ends with one response word carrying `v` (R15, R108). -/
def respond (v : Payload) (s : State) : State :=
  { s with responses := s.responses ++ [okWord v] }

/-- `raise Err(code)`: the command ends, nothing of the block changes, the response is the error word
(R15, R241). -/
def raise (e : CommandError) (s : State) : State :=
  { s with responses := s.responses ++ [errorWord e] }

/-- `GRID <- g` (R15). -/
def writeGrid (g : Grid) (s : State) : State := { s with grid := g }

/-- The valid entries of HIST: those below HCNT, oldest first (R31, R35). -/
def State.seen (s : State) : List Grid := s.hist.take s.hcnt.toNat

/-- `Member(g)`: some valid entry equals `g` in all 2400 cells (R36, R180). -/
def member (g : Grid) (s : State) : Bool := decide (g ∈ s.seen)

/-- `h[k] <- g` in a store whose entries below `k` are all written: entries above `k` stay (R35, R37). -/
def storeAt (h : List Grid) (k : Nat) (g : Grid) : List Grid := h.take k ++ g :: h.drop (k + 1)

/-- `HIST[HCNT] <- GRID ; HCNT <- HCNT + 1` (R181). -/
def storeGrid (s : State) : State :=
  { s with hist := storeAt s.hist s.hcnt.toNat s.grid, hcnt := s.hcnt + 1 }

/-- `rst` at 1: the block takes the reset state, whatever it was doing; a command in progress gets no
response and nothing of a run is kept (R270 to R272). The host's own lists, what it will do next and
what it has been answered, are no state of the block and stay. Log entry 6. -/
def resetBlock (s : State) : State :=
  { State.reset with commands := s.commands, responses := s.responses }

/-- The output `busy` (R39, R110). -/
def State.busy (s : State) : Bool := decide (s.state = .stepping)

/-- The output `done` (R39, R110). -/
def State.done (s : State) : Bool := decide (s.state = .terminated)

end Sys2Proof.Machine
end

