-- ==== Sys2Proof/Machine/Flags.lean ====
section
/-! DEFINITION. STATE and CAUSE, the only flags of the block: their codes, the STATUS view and the two
ways they are written outside RunInit (`10_state.md` R26 to R28, R32; `40_grid_access.md` R126). -/

namespace Sys2Proof.Machine

/-- The value of STATE (R26). -/
def stateCode : RunState → BitVec 2
  | .seeded => 0
  | .stepping => 1
  | .terminated => 2

/-- The value of CAUSE (R28). -/
def causeCode : Cause → BitVec 3
  | .none => 0
  | .repeated => 1
  | .stable => 2
  | .extinct => 3
  | .max => 4

/-- STATUS, register 1: the concatenation of CAUSE and STATE (R32). -/
def statusValue (s : State) : BitVec 5 := causeCode s.cause ++ stateCode s.state

/-- The common effect of a host write of GRID: `STATE <- SEEDED ; CAUSE <- NONE` (R126). -/
def markSeeded (s : State) : State := { s with state := .seeded, cause := .none }

/-- The end of a run: `CAUSE <- c ; STATE <- TERMINATED` (R176). -/
def terminate (c : Cause) (s : State) : State := { s with cause := c, state := .terminated }

end Sys2Proof.Machine
end

