-- ==== Sys2Proof/Machine/Operands.lean ====
section
/-! DEFINITION. The two operand forms: a cell address and a register number, with the range checks of
`30_encoding.md` R96 and R99. There is one addressing mode (R127): the fields as they stand (R94). -/

namespace Sys2Proof.Machine

/-- The cell a pair of fields addresses, or nothing when `row >= 40` or `col >= 60` (R61, R68, R244). -/
def cellOperand (row col : CellField) : Option (Nat × Nat) :=
  if row.toNat < 40 ∧ col.toNat < 60 then some (row.toNat, col.toNat) else none

/-- The register a number names, or nothing for 6 to 15 (R41, R62, R245). -/
def regOperand (reg : RegField) : Option RegName :=
  match reg.toNat with
  | 0 => some .config
  | 1 => some .status
  | 2 => some .gen
  | 3 => some .score
  | 4 => some .hcnt
  | 5 => some .pop
  | _ => none

end Sys2Proof.Machine
end

