-- ==== Sys2Proof/Machine/GridAccess.lean ====
section
/-! DEFINITION. NOP, CLR, SETC, RDC and RDREG: `40_grid_access.md` R121 to R126. -/

namespace Sys2Proof.Machine

/-- NOP (R121): nothing but the response. -/
def execNop (s : State) : Host.Outcome State Fault Refusal := .next (respond 0 s)

/-- CLR (R122): every cell 0. -/
def execClr (s : State) : Host.Outcome State Fault Refusal :=
  .next (respond 0 (markSeeded (writeGrid Grid.dead s)))

/-- SETC r, c, v (R123): one cell, or BAD_ADDR. -/
def execSetc (row col : CellField) (v : Bool) (s : State) : Host.Outcome State Fault Refusal :=
  match cellOperand row col with
  | some (r, c) => .next (respond 0 (markSeeded (writeGrid (s.grid.setCell r c v) s)))
  | none => .next (raise .badAddr s)

/-- RDC r, c (R124): the cell's bit, or BAD_ADDR. -/
def execRdc (row col : CellField) (s : State) : Host.Outcome State Fault Refusal :=
  match cellOperand row col with
  | some (r, c) => .next (respond (BitVec.ofNat 31 (s.grid.cell r c).toNat) s)
  | none => .next (raise .badAddr s)

/-- The value of a register, zero-extended to 31 bits (R41, R125). -/
def regValue (n : RegName) (s : State) : Payload :=
  match n with
  | .config => Config.configValue
  | .status => (statusValue s).setWidth 31
  | .gen => s.gen.setWidth 31
  | .score => s.score.setWidth 31
  | .hcnt => s.hcnt.setWidth 31
  | .pop => BitVec.ofNat 31 s.grid.pop

/-- RDREG n (R125): the register's value, or BAD_REG. -/
def execRdreg (reg : RegField) (s : State) : Host.Outcome State Fault Refusal :=
  match regOperand reg with
  | some n => .next (respond (regValue n s) s)
  | none => .next (raise .badReg s)

end Sys2Proof.Machine
end

