-- ==== Sys2Proof/Machine/NeighborStep.lean ====
section
/-! DEFINITION. NCNT and STEP: `41_neighbor_step.md` R155, R157. -/

namespace Sys2Proof.Machine

/-- NCNT r, c (R155): the neighbour count of the addressed cell, or BAD_ADDR. -/
def execNcnt (row col : CellField) (s : State) : Host.Outcome State Fault Refusal :=
  match cellOperand row col with
  | some (r, c) => .next (respond (BitVec.ofNat 31 (s.grid.nCount r c)) s)
  | none => .next (raise .badAddr s)

/-- STEP (R157): `GRID <- Step(GRID)` with no bookkeeping. -/
def execStep (s : State) : Host.Outcome State Fault Refusal :=
  .next (respond 0 (markSeeded (writeGrid s.grid.next s)))

end Sys2Proof.Machine
end

