-- ==== Sys2Proof/Machine/RunLoop.lean ====
section
/-! DEFINITION. The RUN command: `42_run.md` R170 to R189. -/

namespace Sys2Proof.Machine

/-- `RunInit` (R172). HIST is not erased; with HCNT = 0 no entry is valid. -/
def runInit (s : State) : State :=
  { s with
    hcnt := 0
    score := BitVec.ofNat 22 s.grid.pop
    gen := 0
    cause := .none
    state := .stepping }

/-- `GEN <- GEN + 1`, step 3a (R176). -/
def countIteration (s : State) : State := { s with gen := s.gen + 1 }

/-- `SCORE <- SCORE + Pop(next)`, step 3d (R183). -/
def scoreNext (g : Grid) (s : State) : State := { s with score := s.score + BitVec.ofNat 22 g.pop }

/-- Steps 3d to 3g of an iteration, with `g` the next grid: score it, then test stabilisation, then
extinction, else advance (R183 to R186). -/
def settle (g : Grid) (s : State) : State :=
  let scored := scoreNext g s
  if g = scored.grid then terminate .stable scored
  else if g.extinct then terminate .extinct scored
  else writeGrid g scored

/-- `RunIter` (R176): the loop condition, then 3a, 3b, and 3c to 3g. -/
def runIter (s : State) : State :=
  if 1000 ≤ s.gen.toNat then terminate .max s
  else
    let counted := countIteration s
    if member counted.grid counted then terminate .repeated counted
    else settle counted.grid.next (storeGrid counted)

/-- `while STATE = STEPPING: RunIter` (R170, R177), at most `fuel` evaluations. -/
def runLoop : Nat → State → State
  | 0, s => s
  | fuel + 1, s => if s.state = .stepping then runLoop fuel (runIter s) else s

/-- RUN (R170). 1001 evaluations of `RunIter` are enough for every seed (R191). -/
def execRun (s : State) : Host.Outcome State Fault Refusal :=
  .next (respond 0 (runLoop 1001 (runInit s)))

/-- The bounds of R201 to R203 that keep the next `RunIter` inside the spec: HCNT = GEN <= 1000, every
valid entry of HIST written, SCORE a sum of at most GEN + 1 populations. Every STEPPING state of a run
meets them; no rule says what happens without them (log entry 5). -/
def midRun (s : State) : Bool :=
  decide (s.gen.toNat ≤ 1000) && decide (s.hcnt = s.gen) && decide (s.hcnt.toNat ≤ s.hist.length)
    && decide (s.score.toNat ≤ 2400 * (s.gen.toNat + 1))

/-- The sequencer in STATE = STEPPING: one `RunIter`; when it ends the run, RUN's response OK(0)
(R170, R176, R291). -/
def sequencerStep (s : State) : Host.Outcome State Fault Refusal :=
  if midRun s then
    let t := runIter s
    if t.state = .terminated then .next (respond 0 t) else .next t
  else .fault .brokenRun

end Sys2Proof.Machine
end

