-- ==== Sys2Proof/Machine/Port.lean ====
section
/-! DEFINITION. The command port at the transaction level: what the block meets next (`30_encoding.md`
R110, R111; `70_reset_and_hazards.md` R270 to R272, R281). -/

namespace Sys2Proof.Machine

/-- What the block does next. -/
inductive Fetched where
  /-- Nothing is presented: the block holds its state and waits (R258). -/
  | waits
  /-- `rst` is 1: the state after it, with the event taken (R270). -/
  | resets (s : State)
  /-- STATE is STEPPING: the run goes on and no command is accepted (R281). -/
  | iterates
  /-- A command word is accepted: the word, and the state with the event taken (R111). -/
  | accepts (w : Word) (s : State)
  deriving DecidableEq, Repr

/-- What the block meets next: a reset whatever it is doing (R270); else, during a run, the run
(R281); else the command word presented, if one is. -/
def fetch (s : State) : Fetched :=
  match s.commands with
  | [] => if s.state = .stepping then .iterates else .waits
  | .reset :: rest => .resets (resetBlock { s with commands := rest })
  | .command w :: rest =>
      if s.state = .stepping then .iterates else .accepts w { s with commands := rest }

/-- The host presents the command word `w` next, before what it had waiting. -/
def present (w : Word) (s : State) : State := { s with commands := .command w :: s.commands }

/-- The command function of R96 on one accepted word: ILLEGAL, or the command's own rule. -/
def acceptWord (w : Word) (s : State) : Host.Outcome State Fault Refusal :=
  match decode w with
  | .ok i => exec i s
  | .error e => .next (raise e s)

end Sys2Proof.Machine
end

