-- ==== Sys2Proof/Machine/Step.lean ====
section
/-! DEFINITION. One step of the machine: the execution of one accepted command (`00_scope.md` R12,
`30_encoding.md` R96), a reset, one iteration of a run in progress, or waiting. -/

namespace Sys2Proof.Machine

/-- One step. -/
def step (s : State) : Host.Outcome State Fault Refusal :=
  match fetch s with
  | .waits => .next s
  | .resets t => .next t
  | .iterates => sequencerStep s
  | .accepts w t => acceptWord w t

/-- The low `nbits` bits of `w` presented as the next command word: the block stores no command and
takes each from the port (R80), so this is what the next step runs. Log entry 12. -/
def State.withFetchWord (s : State) (nbits w : Nat) : State :=
  present (BitVec.ofNat 32 (w % 2 ^ nbits)) s

end Sys2Proof.Machine
end

