-- ==== Sys2Proof/Machine/Clock.lean ====
section
/-! DEFINITION. The command port clock by clock: the signals and the handshake of `30_encoding.md` R110
and R111 and reset of `70_reset_and_hazards.md` R270 to R272 around the same block. How many clocks a
command takes is free (R290, U10). The machine behind the host's interface is `step`; this file shows
the signals the transaction-level model has no need of (R111). -/

namespace Sys2Proof.Machine

/-- The inputs of the block at one rising edge of `clk` (R110). -/
structure Pins where
  rst : Bool
  cmdValid : Bool
  cmdData : Word
  deriving DecidableEq, Repr

/-- Where the port is between two edges. -/
inductive PortPhase where
  /-- No command is in progress: `cmd_ready` is 1 while `rst` is 0. -/
  | ready
  /-- A command word was accepted; `clocks` more edges pass before its last one. -/
  | working (w : Word) (clocks : Nat)
  /-- The response was presented; `cmd_ready` is not yet 1 again. -/
  | recovering (clocks : Nat)
  deriving DecidableEq, Repr

/-- The block and its port between two edges. -/
structure PortState where
  /-- The block. Its list of host events is not used: words come by the pins. -/
  block : State
  phase : PortPhase
  /-- `rsp_valid` and `rsp_data`: the response presented in this clock, if one is (R110, R111). DESIGN CHOICE:
  `rst` at 1 in this clock does not mask a response that the edge before, with `rst` at 0, brought; the next edge
  ends it. R270 says only that no response is produced while `rst` is 1. Log entry 10. -/
  rsp : Option Word
  /-- How many commands were accepted: one of the three things a free count of clocks is applied to. -/
  accepted : Nat
  deriving DecidableEq, Repr

/-- `cmd_ready` (R110, R111, R270). -/
def cmdReady (rst : Bool) (p : PortState) : Bool := !rst && decide (p.phase = .ready)

/-- What acceptance alone does to the block: RUN is accepted with RunInit, so STATE is STEPPING and
`busy` is 1 until its response (R27, R172, R281). -/
def atAcceptance (w : Word) (s : State) : State :=
  match decode w with
  | .ok .run => runInit s
  | _ => s

/-- The whole effect of an accepted word, response included. RunInit depends on GRID alone, so the
RunInit of acceptance changes nothing of RUN's effect. -/
def wholeEffect (w : Word) (s : State) : State :=
  match acceptWord w s with
  | .next t => t
  | .fault _ => s
  | .refused _ => s

/-- The phase after a response, with `clocks` edges before `cmd_ready` is 1 again (U10). DESIGN CHOICE: the
count may be 0, and `cmd_ready` is then 1 in the clock of the response itself. Log entry 10. -/
def afterResponse (clocks : Nat) : PortPhase :=
  match clocks with
  | 0 => .ready
  | n + 1 => .recovering n

/-- One rising edge of `clk` (R110, R111, R270 to R272). The clocks of a command are free values of the
count of commands accepted, the word and GRID, and of nothing else: DESIGN CHOICE, since the spec leaves
them free (R290). DESIGN CHOICE too, where R111 and R290 leave the least number of clocks open: no response is
presented in the clock that follows the accepting edge, so at least one whole clock passes without one, with
`cmd_ready` at 0. Log entry 10. -/
def clockEdge (i : Pins) (p : PortState) : PortState :=
  if i.rst then { p with block := resetBlock p.block, phase := .ready, rsp := none }
  else
    match p.phase with
    | .ready =>
      if i.cmdValid then
        { block := atAcceptance i.cmdData p.block
          phase := .working i.cmdData (Config.latency p.accepted i.cmdData p.block.grid.flat)
          rsp := none
          accepted := p.accepted + 1 }
      else { p with rsp := none }
    | .working w (n + 1) => { p with phase := .working w n, rsp := none }
    | .working w 0 =>
      { p with
        block := wholeEffect w p.block
        phase := afterResponse (Config.recovery p.accepted w p.block.grid.flat)
        rsp := (wholeEffect w p.block).responses.getLast? }
    | .recovering n => { p with phase := afterResponse n, rsp := none }

/-- The block and its port after a sequence of edges. -/
def clockEdges : List Pins → PortState → PortState
  | [], p => p
  | i :: is, p => clockEdges is (clockEdge i p)

end Sys2Proof.Machine
end

