-- ==== Sys2Proof/Machine/Loader.lean ====
section
/-! DEFINITION. The seed loader, computed by the host outside the block: `43_seed_loader.md` R210 to
R225, and the pseudo-commands that load a grid and run it (`30_encoding.md` R104). -/

namespace Sys2Proof.Machine

/-- `Encode(w)` (R210, R211): eight bits a byte, most significant first, in the order of the word. -/
def encodeBits (w : List Byte) : List Bool :=
  w.flatMap fun ch => (List.range 8).map fun i => ch.getLsbD (7 - i)

/-- The bytes of a word of character codes, refused when a code does not fit in 8 bits: the treatment
R212 recommends (U1). -/
def wordBytes (cs : List Nat) : Option (List Byte) :=
  if cs.all (fun p => decide (p < 256)) then some (cs.map (BitVec.ofNat 8)) else none

/-- The bytes of a word of character codes with the open parameter `narrow` for the codes that do not
fit (R10, R212, U1). The loader passes `Config.narrow`. -/
def narrowBytes (narrow : Nat → Byte) (cs : List Nat) : List Byte :=
  cs.map fun p => if p < 256 then BitVec.ofNat 8 p else narrow p

/-- `rows_needed = ceil_div(L, 60)` (R215). -/
def rowsNeeded (len : Nat) : Nat := (len + 60 - 1) / 60

/-- `cnt(k) = min(60, L - 60k)`, the bits of block row `k` (R215). -/
def rowCount (len k : Nat) : Nat := min 60 (len - 60 * k)

/-- `vstart = 20 - (rows_needed div 2)`, a mathematical integer (R216). -/
def vstart (len : Nat) : Int := 20 - ((rowsNeeded len / 2 : Nat) : Int)

/-- `scol(k) = (60 - cnt(k)) div 2` (R217). -/
def startCol (len k : Nat) : Nat := (60 - rowCount len k) / 2

/-- The cells of block row `k` written into the grid row `y` of `g` (R218). -/
def writeBlockRow (bits : List Bool) (k y : Nat) (g : Grid) : Grid :=
  (List.range (rowCount bits.length k)).foldl
    (fun g i => g.setCell y (startCol bits.length k + i) (bits.getD (60 * k + i) false)) g

/-- Block row `k` placed, or dropped when its grid row `y(k)` is not in 0 to 39 (R216, R218, R219). -/
def placeBlockRow (bits : List Bool) (g : Grid) (k : Nat) : Grid :=
  match vstart bits.length + k with
  | .ofNat y => if y < 40 then writeBlockRow bits k y g else g
  | .negSucc _ => g

/-- `Seed(bits)` (R214, R218). -/
def seedGrid (bits : List Bool) : Grid :=
  (List.range (rowsNeeded bits.length)).foldl (placeBlockRow bits) Grid.dead

/-- `SeedImage(w) = Seed(Encode(w))` (R222). -/
def seedImage (w : List Byte) : Grid := seedGrid (encodeBits w)

/-- `SeedImage` of a word of character codes, refused when one is wider than 8 bits (R212). -/
def seedImageOf (cs : List Nat) : Option Grid := (wordBytes cs).map seedImage

/-- `SeedImage` of a word of any character codes under the open parameter `narrow` (R212, U1). -/
def seedImageNarrowed (cs : List Nat) : Grid := seedImage (narrowBytes Config.narrow cs)

/-- `SETC r, c, 1` for every alive cell of row `r`, columns increasing (R104). -/
def loadRow (g : Grid) (r : Nat) : List Instr :=
  ((List.range 60).filter (g.cell r)).map fun c =>
    .setc (BitVec.ofNat 6 r) (BitVec.ofNat 6 c) true

/-- `LOADGRID g`: CLR, then one SETC for each alive cell, rows increasing (R104). -/
def loadGrid (g : Grid) : List Instr := .clr :: (List.range 40).flatMap (loadRow g)

/-- `SEED "word"` (R104). -/
def seedWord (w : List Byte) : List Instr := loadGrid (seedImage w)

/-- `RUNWORD "word"`: the document's `run(word)`, GEN and SCORE in its last two responses (R104, R222). -/
def runWord (w : List Byte) : List Instr := seedWord w ++ [.run, .rdreg 2, .rdreg 3]

end Sys2Proof.Machine
end

