-- ==== Sys2Proof/Machine/Script.lean ====
section
/-! DEFINITION. Command scripts: the fold of the command function over a sequence of words or commands
(`20_memory.md` R75), the pseudo-commands (`30_encoding.md` R104) and the script's text (R103). -/

namespace Sys2Proof.Machine

/-- The state after a sequence of commands: the fold of `exec` (R75). It stops where `exec` does. -/
def execAll : List Instr → State → Host.Outcome State Fault Refusal
  | [], s => .next s
  | i :: is, s =>
    match exec i s with
    | .next t => execAll is t
    | .fault f => .fault f
    | .refused r => .refused r

/-- The state after a sequence of accepted words: the fold of the command function of R96 (R75). -/
def acceptAll : List Word → State → Host.Outcome State Fault Refusal
  | [], s => .next s
  | w :: ws, s =>
    match acceptWord w s with
    | .next t => acceptAll ws t
    | .fault f => .fault f
    | .refused r => .refused r

/-- One line of a script: a command or a pseudo-command (R103, R104). -/
inductive ScriptLine where
  | command (i : Instr)
  | set (row col : CellField)
  | res (row col : CellField)
  | rdstat
  | rdgen
  | rdscore
  | rdpop
  | loadgrid (g : Grid)
  | seed (w : List Byte)
  | runword (w : List Byte)
  deriving DecidableEq, Repr

/-- The expansion of a line; the block sees the expansion only (R104). -/
def expandLine : ScriptLine → List Instr
  | .command i => [i]
  | .set row col => [.setc row col true]
  | .res row col => [.setc row col false]
  | .rdstat => [.rdreg 1]
  | .rdgen => [.rdreg 2]
  | .rdscore => [.rdreg 3]
  | .rdpop => [.rdreg 5]
  | .loadgrid g => loadGrid g
  | .seed w => seedWord w
  | .runword w => runWord w

/-- The command words of a script. -/
def assemble (ls : List ScriptLine) : List Word := (ls.flatMap expandLine).map encode

/-! ### The text of a line (R103), as characters -/

/-- What a line of text holds. -/
inductive ParsedLine where
  /-- Nothing but blanks and a comment: ignored (R103). -/
  | blank
  | line (l : ScriptLine)
  /-- No line of the syntax of R103 and R104. -/
  | malformed
  deriving DecidableEq, Repr

/-- Blanks at both ends dropped. -/
def trimChars (cs : List Char) : List Char :=
  ((cs.dropWhile Char.isWhitespace).reverse.dropWhile Char.isWhitespace).reverse

/-- `#` starts a comment to the end of the line (R103). -/
def stripComment (cs : List Char) : List Char := cs.takeWhile (· != '#')

/-- The value of a string of decimal digits. -/
def decimalDigits : List Char → Nat → Option Nat
  | [], acc => some acc
  | c :: cs, acc => if c.isDigit then decimalDigits cs (10 * acc + (c.toNat - 48)) else none

/-- A decimal operand below `bound`, the least value its field cannot hold (R94, R103). -/
def decimalOperand (bound : Nat) (cs : List Char) : Option Nat :=
  match cs with
  | [] => none
  | _ => (decimalDigits cs 0).filter (· < bound)

/-- The pieces of a text between the separators `sep`. -/
def splitChars (sep : Char) : List Char → List (List Char)
  | [] => [[]]
  | c :: cs =>
    if c = sep then [] :: splitChars sep cs
    else
      match splitChars sep cs with
      | [] => [[c]]
      | d :: ds => (c :: d) :: ds

/-- The operands of a line: what stands between commas, blanks dropped (R103). -/
def operandTexts (cs : List Char) : List (List Char) :=
  match trimChars cs with
  | [] => []
  | ds => (splitChars ',' ds).map trimChars

/-- A register operand, by name or by number (R103). -/
def registerText (cs : List Char) : Option RegField :=
  if cs = "CONFIG".toList then some 0
  else if cs = "STATUS".toList then some 1
  else if cs = "GEN".toList then some 2
  else if cs = "SCORE".toList then some 3
  else if cs = "HCNT".toList then some 4
  else if cs = "POP".toList then some 5
  else (decimalOperand 6 cs).map (BitVec.ofNat 4)

/-- The operands `r, c` of a line. -/
def cellText (cs : List Char) : Option (CellField × CellField) :=
  match operandTexts cs with
  | [r, c] =>
    match decimalOperand 64 r, decimalOperand 64 c with
    | some row, some col => some (BitVec.ofNat 6 row, BitVec.ofNat 6 col)
    | _, _ => none
  | _ => none

/-- The operands `r, c, v` of a SETC line. -/
def setcText (cs : List Char) : Option Instr :=
  match operandTexts cs with
  | [r, c, v] =>
    match decimalOperand 64 r, decimalOperand 64 c, decimalOperand 2 v with
    | some row, some col, some bit =>
      some (.setc (BitVec.ofNat 6 row) (BitVec.ofNat 6 col) (bit == 1))
    | _, _, _ => none
  | _ => none

/-- The double quote that stands around a word. -/
def quoteChar : Char := Char.ofNat 34

/-- The operand `"word"` of SEED and RUNWORD, as bytes; a word with a character wider than 8 bits is
refused (R104, R212). -/
def wordText (cs : List Char) : Option (List Byte) :=
  match trimChars cs with
  | [] => none
  | q :: rest =>
    if q = quoteChar ∧ rest.dropWhile (· != quoteChar) = [quoteChar] then
      wordBytes ((rest.takeWhile (· != quoteChar)).map Char.toNat)
    else none

/-- The line a mnemonic and the text after it stand for. -/
def lineText (mnemonic operands : List Char) : Option ScriptLine :=
  let bare (l : ScriptLine) : Option ScriptLine := if operands = [] then some l else none
  if mnemonic = "NOP".toList then bare (.command .nop)
  else if mnemonic = "CLR".toList then bare (.command .clr)
  else if mnemonic = "SETC".toList then (setcText operands).map .command
  else if mnemonic = "RDC".toList then (cellText operands).map fun a => .command (.rdc a.1 a.2)
  else if mnemonic = "NCNT".toList then (cellText operands).map fun a => .command (.ncnt a.1 a.2)
  else if mnemonic = "STEP".toList then bare (.command .step)
  else if mnemonic = "RUN".toList then bare (.command .run)
  else if mnemonic = "RDREG".toList then (registerText operands).map fun n => .command (.rdreg n)
  else if mnemonic = "SET".toList then (cellText operands).map fun a => .set a.1 a.2
  else if mnemonic = "RES".toList then (cellText operands).map fun a => .res a.1 a.2
  else if mnemonic = "RDSTAT".toList then bare .rdstat
  else if mnemonic = "RDGEN".toList then bare .rdgen
  else if mnemonic = "RDSCORE".toList then bare .rdscore
  else if mnemonic = "RDPOP".toList then bare .rdpop
  else if mnemonic = "SEED".toList then (wordText operands).map .seed
  else if mnemonic = "RUNWORD".toList then (wordText operands).map .runword
  else none

/-- One line of text (R103). `LOADGRID g` has no text for its grid in the spec, so no text parses to
it. DESIGN CHOICE, where R103 shows one blank after the mnemonic and states nothing: the mnemonic is the
leading run of capitals, and any number of blanks, none included, may stand before the first operand, so
`RDC20,27` is read as `RDC 20,27`. Log entry 11. -/
def parseLine (cs : List Char) : ParsedLine :=
  match trimChars (stripComment cs) with
  | [] => .blank
  | text =>
    match lineText (text.takeWhile Char.isUpper) (trimChars (text.dropWhile Char.isUpper)) with
    | some l => .line l
    | none => .malformed

/-- A script, one command per line; a malformed line makes the whole script none (R103). -/
def parseScript (lines : List (List Char)) : Option (List ScriptLine) :=
  match lines with
  | [] => some []
  | l :: ls =>
    match parseLine l with
    | .blank => parseScript ls
    | .line c => (parseScript ls).map (c :: ·)
    | .malformed => none

/-- The command words of a text (R103, R104). -/
def assembleText (text : String) : Option (List Word) :=
  (parseScript (splitChars '\n' text.toList)).map assemble

end Sys2Proof.Machine
end

