-- ==== Sys2Proof/Machine/System.lean ====
section
/-! DEFINITION. Several blocks in one system: the product of the blocks (`20_memory.md` R82,
`60_exceptions.md` R256). They share nothing, have no identifiers and no signal between them, and no
order exists between them: which block moves next is an argument. -/

namespace Sys2Proof.Machine

/-- One step of block `k` of a system; the other blocks keep their states. A system has no block `k`
beyond its last, and nothing moves. -/
def systemStep (k : Nat) (blocks : List State) : Host.Outcome (List State) Fault Refusal :=
  match blocks[k]? with
  | none => .next blocks
  | some s =>
    match step s with
    | .next t => .next (blocks.set k t)
    | .fault f => .fault f
    | .refused r => .refused r

end Sys2Proof.Machine
end

