-- ==== Sys2Proof/Safety.lean ====
section
/-! DEFINITION. What the statements speak of: the invariants of `10_state.md` R44 and `42_run.md` R203,
the grids of a run (R190) and the states in which a command is accepted. -/

namespace Sys2Proof.Safety

open Sys2Proof.Machine

/-- `g(i)` of R190: the `i`-th successor of `g0`. -/
def generation (g0 : Grid) : Nat → Grid
  | 0 => g0
  | i + 1 => (generation g0 i).next

/-- `Pop(g0) + ... + Pop(g(n-1))`: the first `n` terms of a score (R190). -/
def scoreSum (g0 : Grid) (n : Nat) : Nat := sumTo (fun i => (generation g0 i).pop) n

/-- `rep(k)` of R190, for `k >= 1`: the current grid of iteration `k` occurred before it. -/
def RepeatsAt (g0 : Grid) (k : Nat) : Prop :=
  ∃ j, j + 2 ≤ k ∧ generation g0 j = generation g0 (k - 1)

/-- `stab(k)` of R190. -/
def StabilisesAt (g0 : Grid) (k : Nat) : Prop := generation g0 k = generation g0 (k - 1)

/-- `ext(k)` of R190. -/
def DiesAt (g0 : Grid) (k : Nat) : Prop := (generation g0 k).pop = 0

/-- `T(k)` of R190: iteration `k` meets a terminal condition. -/
def TerminalAt (g0 : Grid) (k : Nat) : Prop :=
  RepeatsAt g0 k ∨ StabilisesAt g0 k ∨ DiesAt g0 k

/-- `K` of R190: the least `k >= 1` with `T(k)`. -/
def FirstTerminal (g0 : Grid) (k : Nat) : Prop :=
  1 ≤ k ∧ TerminalAt g0 k ∧ ∀ j, 1 ≤ j → j < k → ¬ TerminalAt g0 j

/-- The block accepts the command word `w` next, and the host has `rest` waiting behind it (R111,
R281). -/
def Accepts (s : State) (w : Word) (rest : List HostEvent) : Prop :=
  s.state ≠ .stepping ∧ s.commands = .command w :: rest

/-- The state after an accepted word whose only effect is its response `r`: the word is taken, `r` is
given, and nothing else differs. -/
def answered (s : State) (rest : List HostEvent) (r : Word) : State :=
  { s with commands := rest, responses := s.responses ++ [r] }

/-- A run is in progress and `rst` is 0: the next step is an iteration (R281). -/
def Iterating (s : State) : Prop :=
  s.state = .stepping ∧ ∀ rest, s.commands ≠ .reset :: rest

/-- The bounds of R201 to R203 on the counters of a run in progress. -/
def RunBounds (s : State) : Prop :=
  s.gen.toNat ≤ 1000 ∧ s.hcnt = s.gen ∧ s.hcnt.toNat ≤ s.hist.length
    ∧ s.score.toNat ≤ 2400 * (s.gen.toNat + 1)

/-- The invariants of R44, for a block that is ready to accept a command, with the length of the
model's HIST list. -/
def ReadyInv (s : State) : Prop :=
  s.state ≠ .stepping ∧ (s.cause = .none ↔ s.state = .seeded)
    ∧ s.gen.toNat ≤ 1000 ∧ s.hcnt.toNat ≤ 1000 ∧ s.score.toNat ≤ 2402400
    ∧ (s.state = .terminated → 1 ≤ s.gen.toNat)
    ∧ (s.state = .terminated → s.cause = .repeated → s.hcnt.toNat + 1 = s.gen.toNat)
    ∧ (s.state = .terminated → s.cause ≠ .repeated → s.hcnt = s.gen)
    ∧ (s.state = .terminated → s.cause = .max → s.gen.toNat = 1000 ∧ s.hcnt.toNat = 1000)
    ∧ s.seen.Nodup ∧ s.hcnt.toNat ≤ s.hist.length ∧ s.hist.length ≤ 1000

/-- The invariants of R203, before every evaluation of RunIter, for the run of some seed. -/
def RunInv (g0 : Grid) (s : State) : Prop :=
  s.state = .stepping ∧ s.cause = .none ∧ s.hcnt = s.gen ∧ s.gen.toNat ≤ 1000
    ∧ s.grid = generation g0 s.gen.toNat
    ∧ s.seen = (List.range s.gen.toNat).map (generation g0)
    ∧ s.score.toNat = scoreSum g0 (s.gen.toNat + 1)
    ∧ s.seen.Nodup
    ∧ (∀ i, i < s.gen.toNat →
        generation g0 (i + 1) ≠ generation g0 i ∧ generation g0 (i + 1) ≠ Grid.dead)
    ∧ s.hcnt.toNat ≤ s.hist.length ∧ s.hist.length ≤ 1000

/-- The invariant of the machine: R44 between commands, R203 during a run. -/
def Inv (s : State) : Prop := ReadyInv s ∨ ∃ g0, RunInv g0 s

end Sys2Proof.Safety
end

