-- ==== Sys2Proof/Certificates/Slice0/Obligations.lean ====
section
/-! DEFINITION. The statements for the provers, family by family of the spec. -/

open Sys2Proof Sys2Proof.Machine Sys2Proof.Safety

/-! ### Encoding (`30_encoding.md`) -/

/-- R102: the values of `enc`, and that decoding and encoding undo each other. -/
def Obligations.DecodeEncodeInverse : Prop :=
  (encode .nop).toNat = 0x00000000 ∧ (encode .clr).toNat = 0x10000000 ∧
  (encode .step).toNat = 0x50000000 ∧ (encode .run).toNat = 0x60000000 ∧
  (∀ (row col : CellField) (v : Bool),
    (encode (.setc row col v)).toNat
      = 0x20000000 + row.toNat * 2 ^ 22 + col.toNat * 2 ^ 16 + v.toNat) ∧
  (∀ row col : CellField,
    (encode (.rdc row col)).toNat = 0x30000000 + row.toNat * 2 ^ 22 + col.toNat * 2 ^ 16) ∧
  (∀ row col : CellField,
    (encode (.ncnt row col)).toNat = 0x40000000 + row.toNat * 2 ^ 22 + col.toNat * 2 ^ 16) ∧
  (∀ reg : RegField, (encode (.rdreg reg)).toNat = 0x70000000 + reg.toNat * 2 ^ 24) ∧
  (∀ i : Instr, decode (encode i) = .ok i) ∧
  (∀ (w : Word) (i : Instr), decode w = .ok i → encode i = w)

/-- R95: a word spells a command exactly when it lies under the command's row of the opcode map, and
it lies under at most one row; the all-zero word is NOP and the all-one word lies under none; a word that
lies under a row may still be out of range. -/
def Obligations.OpcodeMapDecides : Prop :=
  opcodeMap = [⟨"NOP", 0x00000000, 0xFFFFFFFF⟩, ⟨"CLR", 0x10000000, 0xFFFFFFFF⟩,
    ⟨"SETC", 0x20000000, 0xF000FFFE⟩, ⟨"RDC", 0x30000000, 0xF000FFFF⟩,
    ⟨"NCNT", 0x40000000, 0xF000FFFF⟩, ⟨"STEP", 0x50000000, 0xFFFFFFFF⟩,
    ⟨"RUN", 0x60000000, 0xFFFFFFFF⟩, ⟨"RDREG", 0x70000000, 0xF0FFFFFF⟩] ∧
  (∀ (w : Word) (m : String),
    (∃ i, decode w = .ok i ∧ i.mnemonic = m) ↔
      ∃ r ∈ opcodeMap, r.mnemonic = m ∧ w &&& r.mask = r.bits) ∧
  (∀ (w : Word) (r q : OpcodeRow), r ∈ opcodeMap → q ∈ opcodeMap →
    w &&& r.mask = r.bits → w &&& q.mask = q.bits → r = q) ∧
  decode 0x00000000 = .ok .nop ∧ (∀ r ∈ opcodeMap, (0xFFFFFFFF : Word) &&& r.mask ≠ r.bits) ∧
  (∃ w i, decode w = .ok i ∧ i.wellFormed = false)

/-- R100: how many words spell each command with its operands in range, and that every other word
raises an error. -/
def Obligations.LegalWordCount : Prop :=
  (∀ m n, (m, n) ∈ [("NOP", 1), ("CLR", 1), ("STEP", 1), ("RUN", 1), ("SETC", 4800),
      ("RDC", 2400), ("NCNT", 2400), ("RDREG", 6)] →
    ∃ l : List Word, l.Nodup ∧ l.length = n ∧
      ∀ w, w ∈ l ↔ ∃ i : Instr, decode w = .ok i ∧ i.wellFormed = true ∧ i.mnemonic = m) ∧
  (∃ l : List Word, l.Nodup ∧ l.length = 9610 ∧
    ∀ w, w ∈ l ↔ ∃ i : Instr, decode w = .ok i ∧ i.wellFormed = true) ∧
  (∀ (w : Word) (s : State), (¬ ∃ i : Instr, decode w = .ok i ∧ i.wellFormed = true) →
    ∃ e, acceptWord w s = .next (raise e s))

/-- R96, with the order of checks of R246 and the totality of R105: what one accepted word does. -/
def Obligations.AcceptedWordOutcome : Prop :=
  ∀ (s : State) (w : Word) (rest : List HostEvent), Accepts s w rest →
    let op := w.toNat / 2 ^ 28
    let row := w.toNat / 2 ^ 22 % 2 ^ 6
    let col := w.toNat / 2 ^ 16 % 2 ^ 6
    let reg := w.toNat / 2 ^ 24 % 2 ^ 4
    if 8 ≤ op then step s = .next (answered s rest 0x80000001)
    else if op ∈ [0, 1, 5, 6] ∧ w.toNat % 2 ^ 28 ≠ 0 then step s = .next (answered s rest 0x80000001)
    else if op = 2 ∧ w.toNat / 2 % 2 ^ 15 ≠ 0 then step s = .next (answered s rest 0x80000001)
    else if op ∈ [3, 4] ∧ w.toNat % 2 ^ 16 ≠ 0 then step s = .next (answered s rest 0x80000001)
    else if op = 7 ∧ w.toNat % 2 ^ 24 ≠ 0 then step s = .next (answered s rest 0x80000001)
    else if op ∈ [2, 3, 4] ∧ (40 ≤ row ∨ 60 ≤ col) then
      step s = .next (answered s rest 0x80000002)
    else if op = 7 ∧ 6 ≤ reg then step s = .next (answered s rest 0x80000003)
    else ∃ i : Instr, i.wellFormed = true ∧
      step s = exec i { s with commands := rest } ∧
      i = match op with
        | 0 => .nop
        | 1 => .clr
        | 2 => .setc (BitVec.ofNat 6 row) (BitVec.ofNat 6 col) (w.toNat % 2 == 1)
        | 3 => .rdc (BitVec.ofNat 6 row) (BitVec.ofNat 6 col)
        | 4 => .ncnt (BitVec.ofNat 6 row) (BitVec.ofNat 6 col)
        | 5 => .step
        | 6 => .run
        | _ => .rdreg (BitVec.ofNat 4 reg)

/-- The step runs the decoded command: the word is taken from the port and `exec` does the rest. No
other thing is done around it. -/
def Obligations.StepRunsDecodedCommand : Prop :=
  ∀ (s : State) (w : Word) (rest : List HostEvent) (i : Instr), Accepts s w rest →
    decode w = .ok i → step s = exec i { s with commands := rest }

/-- Words written out from the encodings of R91 to R95, one of each command (vectors EN1, EN2, EN6,
EN9, EN14 to EN16, EN22). -/
def Obligations.EncodedWordsDecode : Prop :=
  decode 0x00000000 = .ok .nop ∧ decode 0x10000000 = .ok .clr ∧
  decode 0x29FB0001 = .ok (.setc 39 59 true) ∧ decode 0x351C0000 = .ok (.rdc 20 28) ∧
  decode 0x44DE0000 = .ok (.ncnt 19 30) ∧ decode 0x50000000 = .ok .step ∧
  decode 0x60000000 = .ok .run ∧ decode 0x75000000 = .ok (.rdreg 5)

/-! ### Responses and errors (`30_encoding.md`, `60_exceptions.md`) -/

/-- R108, with the codes of R242: an accepted word gets exactly one response word; bit 31 tells an
error, whose word is one of three; a value fits in 30 bits. The words that answering and raising an error
give. -/
def Obligations.OneResponsePerCommand : Prop :=
  (∀ (s : State) (w : Word) (rest : List HostEvent), Accepts s w rest →
    ∃ (t : State) (r : Word), step s = .next t ∧ t.commands = rest ∧
      t.responses = s.responses ++ [r] ∧
      (r = 0x80000001 ∨ r = 0x80000002 ∨ r = 0x80000003 ∨ r.toNat < 2 ^ 30)) ∧
  (∀ (v : Payload) (s : State),
    respond v s = { s with responses := s.responses ++ [BitVec.ofNat 32 v.toNat] }) ∧
  (∀ (e : CommandError) (s : State),
    raise e s = { s with
      responses := s.responses ++ [BitVec.ofNat 32 (0x80000000 + (errorCode e).toNat)] })

/-- R241: a command that raises an error changes nothing of the block, and the block is ready for the
next command. -/
def Obligations.ErrorsChangeNothing : Prop :=
  ∀ (s t : State) (w r : Word) (rest : List HostEvent), Accepts s w rest → step s = .next t →
    t.responses = s.responses ++ [r] → r.getLsbD 31 = true →
    t = answered s rest r ∧ (∃ e : CommandError, r = 0x80000000 + (errorCode e).setWidth 32) ∧
      t.state ≠ .stepping

/-- R71 and R121: NOP, RDC, NCNT and RDREG change nothing but the responses, a read repeated gives the
same response, and a repeated SETC or CLR leaves the block as the first left it. -/
def Obligations.ReadsHaveNoSideEffect : Prop :=
  (∀ (i : Instr) (s : State), i.mnemonic ∈ ["NOP", "RDC", "NCNT", "RDREG"] →
    ∃ r, exec i s = .next { s with responses := s.responses ++ [r] } ∧
      execAll [i, i] s = .next { s with responses := s.responses ++ [r, r] }) ∧
  (∀ (i : Instr) (s t u : State), i.mnemonic ∈ ["CLR", "SETC"] → exec i s = .next t →
    exec i t = .next u → u = { t with responses := u.responses })

/-- R29 to R31 and R37, one sentence of each: only RUN writes GEN, SCORE, HCNT and HIST. -/
def Obligations.OnlyRunWritesResults : Prop :=
  ∀ (i : Instr) (s t : State), i ≠ .run → exec i s = .next t →
    t.gen = s.gen ∧ t.score = s.score ∧ t.hcnt = s.hcnt ∧ t.hist = s.hist

/-! ### Grid access (`40_grid_access.md`) -/

/-- R121, NOP. -/
def Obligations.NopCommand : Prop :=
  (∀ s : State, exec .nop s = .next { s with responses := s.responses ++ [0x00000000] }) ∧
  (∀ (s : State) (w : Word) (rest : List HostEvent), Accepts s w rest → w.toNat / 2 ^ 28 = 0 →
    step s = .next (answered s rest (if w.toNat % 2 ^ 28 = 0 then 0x00000000 else 0x80000001)))

/-- R122, CLR. -/
def Obligations.ClrCommand : Prop :=
  (∀ s : State, ∃ t, exec .clr s = .next t ∧
    (∀ r c, r < 40 → c < 60 → t.grid.cell r c = false) ∧
    t = { s with
          grid := Grid.dead, state := .seeded, cause := .none
          responses := s.responses ++ [0x00000000] }) ∧
  (∀ (s : State) (w : Word) (rest : List HostEvent), Accepts s w rest → w.toNat / 2 ^ 28 = 1 →
    step s = if w.toNat % 2 ^ 28 = 0 then exec .clr { s with commands := rest }
      else .next (answered s rest 0x80000001))

/-- R123, SETC: the write of one cell and its frame, the two errors, and the order of two writes. -/
def Obligations.SetcCommand : Prop :=
  (∀ (s : State) (row col : CellField) (v : Bool), row.toNat < 40 → col.toNat < 60 →
    ∃ t, exec (.setc row col v) s = .next t ∧
      (∀ y x, y < 40 → x < 60 →
        t.grid.cell y x = if y = row.toNat ∧ x = col.toNat then v else s.grid.cell y x) ∧
      t = { s with
            grid := t.grid, state := .seeded, cause := .none
            responses := s.responses ++ [0x00000000] }) ∧
  (∀ (s : State) (row col : CellField) (v : Bool), 40 ≤ row.toNat ∨ 60 ≤ col.toNat →
    exec (.setc row col v) s = .next { s with responses := s.responses ++ [0x80000002] }) ∧
  (∀ (s : State) (w : Word) (rest : List HostEvent), Accepts s w rest → w.toNat / 2 ^ 28 = 2 →
    step s = if w.toNat / 2 % 2 ^ 15 = 0 then
        exec (.setc (BitVec.ofNat 6 (w.toNat / 2 ^ 22)) (BitVec.ofNat 6 (w.toNat / 2 ^ 16))
          (w.toNat % 2 == 1)) { s with commands := rest }
      else .next (answered s rest 0x80000001)) ∧
  (∀ (s : State) (r c y x : CellField) (v u : Bool), r.toNat < 40 → c.toNat < 60 →
    y.toNat < 40 → x.toNat < 60 → ¬ (r = y ∧ c = x) →
    execAll [.setc r c v, .setc y x u] s = execAll [.setc y x u, .setc r c v] s) ∧
  (∀ (s : State) (r c : CellField) (v u : Bool), r.toNat < 40 → c.toNat < 60 →
    ∃ t t', execAll [.setc r c v, .setc r c u] s = .next t ∧ exec (.setc r c u) s = .next t' ∧
      t.grid = t'.grid)

/-- R124, RDC. -/
def Obligations.RdcCommand : Prop :=
  (∀ (s : State) (row col : CellField), row.toNat < 40 → col.toNat < 60 →
    exec (.rdc row col) s = .next { s with
      responses := s.responses ++
        [if s.grid.cell row.toNat col.toNat then 0x00000001 else 0x00000000] }) ∧
  (∀ (s : State) (row col : CellField), 40 ≤ row.toNat ∨ 60 ≤ col.toNat →
    exec (.rdc row col) s = .next { s with responses := s.responses ++ [0x80000002] }) ∧
  (∀ (row col : CellField), row.toNat < 40 → col.toNat < 60 →
    exec (.rdc row col) State.reset = .next { State.reset with responses := [0x00000000] }) ∧
  (∀ (s : State) (w : Word) (rest : List HostEvent), Accepts s w rest → w.toNat / 2 ^ 28 = 3 →
    step s = if w.toNat % 2 ^ 16 = 0 then
        exec (.rdc (BitVec.ofNat 6 (w.toNat / 2 ^ 22)) (BitVec.ofNat 6 (w.toNat / 2 ^ 16)))
          { s with commands := rest }
      else .next (answered s rest 0x80000001))

/-- R125, RDREG, with the values of R32 to R34 and R41. -/
def Obligations.RdregCommand : Prop :=
  (∀ s : State,
    exec (.rdreg 0) s = .next { s with responses := s.responses ++ [0x07E8283C] } ∧
    exec (.rdreg 1) s = .next { s with
      responses := s.responses ++
        [BitVec.ofNat 32 ((causeCode s.cause).toNat * 4 + (stateCode s.state).toNat)] } ∧
    exec (.rdreg 2) s = .next { s with responses := s.responses ++ [BitVec.ofNat 32 s.gen.toNat] } ∧
    exec (.rdreg 3) s = .next { s with
      responses := s.responses ++ [BitVec.ofNat 32 s.score.toNat] } ∧
    exec (.rdreg 4) s = .next { s with responses := s.responses ++ [BitVec.ofNat 32 s.hcnt.toNat] } ∧
    exec (.rdreg 5) s = .next { s with responses := s.responses ++ [BitVec.ofNat 32 s.grid.pop] }) ∧
  (∀ (s : State) (reg : RegField), 6 ≤ reg.toNat →
    exec (.rdreg reg) s = .next { s with responses := s.responses ++ [0x80000003] }) ∧
  (∀ (s : State) (w : Word) (rest : List HostEvent), Accepts s w rest → w.toNat / 2 ^ 28 = 7 →
    step s = if w.toNat % 2 ^ 24 = 0 then
        exec (.rdreg (BitVec.ofNat 4 (w.toNat / 2 ^ 24))) { s with commands := rest }
      else .next (answered s rest 0x80000001))

/-- R126: CLR, SETC and STEP that raise no error make STATE SEEDED and CAUSE NONE and leave GEN,
SCORE, HCNT and HIST, whatever STATE was and whether or not a cell changes. -/
def Obligations.GridWritesMarkSeeded : Prop :=
  ∀ (i : Instr) (s : State), i.mnemonic ∈ ["CLR", "SETC", "STEP"] → i.wellFormed = true →
    ∃ t, exec i s = .next t ∧ t.state = .seeded ∧ t.cause = .none ∧
      t.gen = s.gen ∧ t.score = s.score ∧ t.hcnt = s.hcnt ∧ t.hist = s.hist

/-! ### The automaton (`41_neighbor_step.md`) -/

/-- R142: the neighbour count is the number of alive cells among the cells of the grid, other than
the cell itself, whose row and column differ from its own by at most one; a position outside the
grid is read as 0. -/
def Obligations.NeighbourCountIsMoore : Prop :=
  (∀ (g : Grid) (r c : Nat), r < 40 → c < 60 →
    g.nCount r c =
      ((Finset.range 40 ×ˢ Finset.range 60).filter fun p : Nat × Nat =>
        g.cell p.1 p.2 = true ∧ p ≠ (r, c) ∧
        p.1 ≤ r + 1 ∧ r ≤ p.1 + 1 ∧ p.2 ≤ c + 1 ∧ c ≤ p.2 + 1).card) ∧
  (∀ (g : Grid) (y x : Int),
    g.cellAt y x = if 0 ≤ y ∧ y < 40 ∧ 0 ≤ x ∧ x < 60 then g.cell y.toNat x.toNat else false) ∧
  (∀ (g : Grid) (r c : Nat),
    g.nCount r c =
      (g.cellAt (r - 1) (c - 1)).toNat + (g.cellAt (r - 1) c).toNat
        + (g.cellAt (r - 1) (c + 1)).toNat + (g.cellAt r (c - 1)).toNat
        + (g.cellAt r (c + 1)).toNat + (g.cellAt (r + 1) (c - 1)).toNat
        + (g.cellAt (r + 1) c).toNat + (g.cellAt (r + 1) (c + 1)).toNat)

/-- R143: the largest count of a cell by where it lies, and that the grid of 2400 alive cells has it. -/
def Obligations.LargestNeighbourCount : Prop :=
  ∀ r c : Nat, r < 40 → c < 60 →
    let edgeRow := r = 0 ∨ r = 39
    let edgeCol := c = 0 ∨ c = 59
    let largest := if edgeRow ∧ edgeCol then 3 else if edgeRow ∨ edgeCol then 5 else 8
    (∀ g : Grid, g.nCount r c ≤ largest) ∧ (Grid.ofFn fun _ _ => true).nCount r c = largest

/-- R144: the positions counted for the corners and the edges, written out. -/
def Obligations.EdgePositions : Prop :=
  ∀ g : Grid,
    let n := fun y x => (g.cell y x).toNat
    g.nCount 0 0 = n 0 1 + n 1 0 + n 1 1 ∧
    g.nCount 0 59 = n 0 58 + n 1 58 + n 1 59 ∧
    g.nCount 39 0 = n 38 0 + n 38 1 + n 39 1 ∧
    g.nCount 39 59 = n 38 58 + n 38 59 + n 39 58 ∧
    (∀ c, 1 ≤ c → c ≤ 58 →
      g.nCount 0 c = n 0 (c - 1) + n 0 (c + 1) + n 1 (c - 1) + n 1 c + n 1 (c + 1) ∧
      g.nCount 39 c = n 38 (c - 1) + n 38 c + n 38 (c + 1) + n 39 (c - 1) + n 39 (c + 1)) ∧
    (∀ r, 1 ≤ r → r ≤ 38 →
      g.nCount r 0 = n (r - 1) 0 + n (r - 1) 1 + n r 1 + n (r + 1) 0 + n (r + 1) 1 ∧
      g.nCount r 59 = n (r - 1) 58 + n (r - 1) 59 + n r 58 + n (r + 1) 58 + n (r + 1) 59)

/-- R145 and the Boolean form of R146: the transition rule. -/
def Obligations.TransitionRule : Prop :=
  ∀ (a : Bool) (n : Fin 9),
    rule a n.val = (if n.val = 3 then true else if a = true ∧ n.val = 2 then true else false) ∧
    rule a n.val =
      (!n.val.testBit 3 && !n.val.testBit 2 && n.val.testBit 1 && (n.val.testBit 0 || a))

/-- R147 and R148: every cell of the next grid is the rule on the old grid, and it depends on no old
cell but the nine around it. -/
def Obligations.NextGridIsSimultaneous : Prop :=
  (∀ (g : Grid) (r c : Nat), r < 40 → c < 60 →
    g.next.cell r c = rule (g.cell r c) (g.nCount r c)) ∧
  (∀ (g h : Grid) (r c : Nat), r < 40 → c < 60 →
    (∀ y x, y < 40 → x < 60 → y ≤ r + 1 → r ≤ y + 1 → x ≤ c + 1 → c ≤ x + 1 →
      g.cell y x = h.cell y x) →
    g.next.cell r c = h.next.cell r c)

/-- R149: the dead grid is fixed, a single cell dies, and a 2 by 2 block anywhere is a still life. -/
def Obligations.StepFacts : Prop :=
  Grid.dead.next = Grid.dead ∧
  (∀ r c, r < 40 → c < 60 →
    (Grid.ofFn fun y x => decide (y = r ∧ x = c)).next = Grid.dead) ∧
  (∀ r c, r < 39 → c < 59 →
    (Grid.ofFn fun y x => decide ((y = r ∨ y = r + 1) ∧ (x = c ∨ x = c + 1))).next
      = Grid.ofFn fun y x => decide ((y = r ∨ y = r + 1) ∧ (x = c ∨ x = c + 1)))

/-- R150 and R151: the population counts the alive cells, is at most 2400, and is 0 exactly for the
dead grid. -/
def Obligations.PopulationCountsCells : Prop :=
  ∀ g : Grid,
    g.pop = ((Finset.range 40 ×ˢ Finset.range 60).filter fun p : Nat × Nat =>
      g.cell p.1 p.2 = true).card ∧
    g.pop ≤ 2400 ∧ (g.pop = 0 ↔ g = Grid.dead) ∧ (g.extinct = true ↔ g = Grid.dead)

/-- R14 and R66: grids are equal when their cells are, and `Flat` is one-to-one and onto. -/
def Obligations.FlatIsOneToOne : Prop :=
  (∀ (g : Grid) (r c : Nat), r < 40 → c < 60 → g.flat.getLsbD (60 * r + c) = g.cell r c) ∧
  (∀ g h : Grid, g = h ↔ ∀ r c, r < 40 → c < 60 → g.cell r c = h.cell r c) ∧
  (∀ g h : Grid, g = h ↔ g.flat = h.flat) ∧ (∀ v : BitVec 2400, ∃ g : Grid, g.flat = v)

/-- R21 and R67: bit `c` of ROW[r] is the cell in column `c`, and the row is its slice of `Flat`. -/
def Obligations.RowRegisters : Prop :=
  ∀ (g : Grid) (r : Nat), r < 40 →
    (∀ c, c < 60 → (g.row r).getLsbD c = g.cell r c) ∧ g.flat.extractLsb' (60 * r) 60 = g.row r

/-- R155, NCNT. -/
def Obligations.NcntCommand : Prop :=
  (∀ (s : State) (row col : CellField), row.toNat < 40 → col.toNat < 60 →
    s.grid.nCount row.toNat col.toNat ≤
      (if (row.toNat = 0 ∨ row.toNat = 39) ∧ (col.toNat = 0 ∨ col.toNat = 59) then 3
      else if row.toNat = 0 ∨ row.toNat = 39 ∨ col.toNat = 0 ∨ col.toNat = 59 then 5 else 8) ∧
    exec (.ncnt row col) s = .next { s with
      responses := s.responses ++ [BitVec.ofNat 32 (s.grid.nCount row.toNat col.toNat)] }) ∧
  (∀ (s : State) (row col : CellField), 40 ≤ row.toNat ∨ 60 ≤ col.toNat →
    exec (.ncnt row col) s = .next { s with responses := s.responses ++ [0x80000002] }) ∧
  (∀ (s : State) (w : Word) (rest : List HostEvent), Accepts s w rest → w.toNat / 2 ^ 28 = 4 →
    step s = if w.toNat % 2 ^ 16 = 0 then
        exec (.ncnt (BitVec.ofNat 6 (w.toNat / 2 ^ 22)) (BitVec.ofNat 6 (w.toNat / 2 ^ 16)))
          { s with commands := rest }
      else .next (answered s rest 0x80000001))

/-- R157, STEP. -/
def Obligations.StepCommand : Prop :=
  (∀ s : State, ∃ t, exec .step s = .next t ∧
    (∀ r c, r < 40 → c < 60 →
      t.grid.cell r c =
        (if s.grid.nCount r c = 3 then true
        else if s.grid.cell r c = true ∧ s.grid.nCount r c = 2 then true else false)) ∧
    t = { s with
          grid := t.grid, state := .seeded, cause := .none
          responses := s.responses ++ [0x00000000] }) ∧
  (∀ (s : State) (w : Word) (rest : List HostEvent), Accepts s w rest → w.toNat / 2 ^ 28 = 5 →
    step s = if w.toNat % 2 ^ 28 = 0 then exec .step { s with commands := rest }
      else .next (answered s rest 0x80000001))

/-! ### The run (`42_run.md`) -/

/-- R190: RUN as one function of the seed, for every state: the iteration that ends it, by the least
terminal index `K`, or the cap; what every register holds after it; and its frame. -/
def Obligations.RunClosedForm : Prop :=
  ∀ s : State, ∃ t, exec .run s = .next t ∧
    t = { s with
          grid := t.grid, state := .terminated, cause := t.cause, gen := t.gen, score := t.score
          hcnt := t.hcnt, hist := t.hist, responses := s.responses ++ [0x00000000] } ∧
    t.seen = (List.range t.hcnt.toNat).map (generation s.grid) ∧
    ((∃ K, K ≤ 1000 ∧ FirstTerminal s.grid K ∧ t.gen.toNat = K ∧
        t.grid = generation s.grid (K - 1) ∧
        ((RepeatsAt s.grid K ∧ t.cause = .repeated ∧ t.hcnt.toNat = K - 1 ∧
            t.score.toNat = scoreSum s.grid K) ∨
          (¬ RepeatsAt s.grid K ∧ StabilisesAt s.grid K ∧ t.cause = .stable ∧
            t.hcnt.toNat = K ∧ t.score.toNat = scoreSum s.grid (K + 1)) ∨
          (¬ RepeatsAt s.grid K ∧ ¬ StabilisesAt s.grid K ∧ DiesAt s.grid K ∧
            t.cause = .extinct ∧ t.hcnt.toNat = K ∧
            t.score.toNat = scoreSum s.grid (K + 1)))) ∨
      ((∀ K, 1 ≤ K → K ≤ 1000 → ¬ TerminalAt s.grid K) ∧ t.cause = .max ∧ t.gen.toNat = 1000 ∧
        t.hcnt.toNat = 1000 ∧ t.grid = generation s.grid 1000 ∧
        t.score.toNat = scoreSum s.grid 1001))

/-- RUN at the port (R170): the word 0x60000000 runs, any other word of its opcode is ILLEGAL and
runs nothing. -/
def Obligations.RunWordRuns : Prop :=
  ∀ (s : State) (w : Word) (rest : List HostEvent), Accepts s w rest → w.toNat / 2 ^ 28 = 6 →
    step s = if w.toNat % 2 ^ 28 = 0 then exec .run { s with commands := rest }
      else .next (answered s rest 0x80000001)

/-- R172: RunInit. -/
def Obligations.RunInitialisation : Prop :=
  ∀ s : State,
    (runInit s).hcnt = 0 ∧ (runInit s).score.toNat = s.grid.pop ∧ (runInit s).gen = 0 ∧
    (runInit s).cause = .none ∧ (runInit s).state = .stepping ∧ (runInit s).grid = s.grid ∧
    (runInit s).hist = s.hist ∧ (runInit s).seen = [] ∧ (runInit s).commands = s.commands ∧
    (runInit s).responses = s.responses

/-- R176: one pass of `RunIter` in STATE = STEPPING, by its five exits, within the bounds of R201 to
R203 that every run keeps. -/
def Obligations.RunIteration : Prop :=
  ∀ s : State, s.state = .stepping → RunBounds s →
    if 1000 ≤ s.gen.toNat then
      runIter s = { s with cause := .max, state := .terminated }
    else if s.grid ∈ s.seen then
      runIter s = { s with gen := (runIter s).gen, cause := .repeated, state := .terminated } ∧
        (runIter s).gen.toNat = s.gen.toNat + 1
    else
      (runIter s).gen.toNat = s.gen.toNat + 1 ∧ (runIter s).hcnt.toNat = s.hcnt.toNat + 1 ∧
      (runIter s).seen = s.seen ++ [s.grid] ∧
      (runIter s).score.toNat = s.score.toNat + s.grid.next.pop ∧
      (runIter s).commands = s.commands ∧ (runIter s).responses = s.responses ∧
      if s.grid.next = s.grid then
        (runIter s).cause = .stable ∧ (runIter s).state = .terminated ∧ (runIter s).grid = s.grid
      else if s.grid.next.pop = 0 then
        (runIter s).cause = .extinct ∧ (runIter s).state = .terminated ∧ (runIter s).grid = s.grid
      else
        (runIter s).cause = s.cause ∧ (runIter s).state = .stepping ∧
          (runIter s).grid = s.grid.next

/-- R12, the finer step: in STATE = STEPPING a step of the machine is one pass of `RunIter`, and the pass
that ends the run gives RUN's response (R170). That a step is one pass is the model's choice (log
entry 3). -/
def Obligations.SteppingStepIsIteration : Prop :=
  ∀ s : State, Iterating s → RunBounds s →
    step s = .next (if (runIter s).state = .terminated then
      { runIter s with responses := s.responses ++ [0x00000000] } else runIter s)

/-- R12 and R177: the run iterated by the sequencer, step by step from RunInit, ends in the state that
RUN as one command ends in, for a host that presents no reset. -/
def Obligations.RunStepByStepIsRun : Prop :=
  ∀ s : State, (∀ rest, s.commands ≠ .reset :: rest) →
    ∃ n, 1 ≤ n ∧ n ≤ 1001 ∧ Host.Core.run Sys2Proof.core n (runInit s) = exec .run s

/-- R203: the invariants before every evaluation of RunIter hold after RunInit and are kept by every
iteration that does not end the run. -/
def Obligations.RunInvariantKept : Prop :=
  (∀ s : State, s.hist.length ≤ 1000 → RunInv s.grid (runInit s)) ∧
  (∀ (g0 : Grid) (s t : State), RunInv g0 s → Iterating s → step s = .next t →
    (t.state = .stepping → RunInv g0 t) ∧ (t.state ≠ .stepping → ReadyInv t))

/-- R44 and R203: every step keeps the invariant of the machine. -/
def Obligations.StepKeepsInvariant : Prop :=
  ∀ s t : State, Inv s → step s = .next t → Inv t

/-- R44 at reset: the state after reset meets the invariant between commands. -/
def Obligations.ResetMeetsInvariant : Prop := ReadyInv State.reset

/-- A state that meets the invariant never stops: every step answers a next state (R105, R206, R240).
The one fault is that of a STEPPING state out of the bounds of R201 to R203, which no run reaches
(log entry 5, the model's choice). -/
def Obligations.InvariantStatesNeverStop : Prop :=
  (∀ s : State, Inv s → ∃ t, step s = .next t) ∧
  (∀ s : State, step s = .fault .brokenRun ↔ Iterating s ∧ ¬ RunBounds s) ∧
  (∀ (s : State) (r : Refusal), step s ≠ .refused r)

/-- R191, with the bounds of R200 to R202: 1001 evaluations of RunIter end every run, and more change
nothing. -/
def Obligations.RunEndsWithinBound : Prop :=
  ∀ s : State,
    (runLoop 1001 (runInit s)).state = .terminated ∧
    (∀ n, 1001 ≤ n → runLoop n (runInit s) = runLoop 1001 (runInit s)) ∧
    ∃ t, exec .run s = .next t ∧ 1 ≤ t.gen.toNat ∧ t.gen.toNat ≤ 1000 ∧
      t.score.toNat ≤ 2402400 ∧ t.hcnt.toNat ≤ 1000

/-- R204 and R40: what a run leaves depends on the seed grid alone. -/
def Obligations.RunDependsOnGridAlone : Prop :=
  ∀ s u : State, s.grid = u.grid → ∃ t v, exec .run s = .next t ∧ exec .run u = .next v ∧
    t.grid = v.grid ∧ t.state = v.state ∧ t.cause = v.cause ∧ t.gen = v.gen ∧
    t.score = v.score ∧ t.hcnt = v.hcnt ∧ t.seen = v.seen

/-- R192: what holds after RUN, by its cause, one of the four. -/
def Obligations.RunResultsByCause : Prop :=
  ∀ s t : State, exec .run s = .next t →
    (t.cause = .repeated ∧ 3 ≤ t.gen.toNat ∧ t.gen.toNat ≤ 1000 ∧
      ∃ i j, i < j ∧ j < t.gen.toNat ∧ generation s.grid i = t.grid ∧ generation s.grid j = t.grid) ∨
    (t.cause = .stable ∧ 1 ≤ t.gen.toNat ∧ t.gen.toNat ≤ 1000 ∧ t.grid.next = t.grid) ∨
    (t.cause = .extinct ∧ 1 ≤ t.gen.toNat ∧ t.gen.toNat ≤ 1000 ∧ t.grid ≠ Grid.dead ∧
      t.grid.next = Grid.dead) ∨
    (t.cause = .max ∧ t.gen.toNat = 1000 ∧ t.grid = generation s.grid 1000)

/-- R188, first consequence, and R274: the all-dead seed ends as STABLE at generation 1 with score 0;
so RUN straight after reset. -/
def Obligations.DeadSeedIsStable : Prop :=
  ∀ s : State, s.grid = Grid.dead → ∃ t, exec .run s = .next t ∧
    t.cause = .stable ∧ t.state = .terminated ∧ t.gen = 1 ∧ t.score = 0 ∧ t.hcnt = 1 ∧
    t.grid = Grid.dead

/-- R194: a second RUN takes the grid the first left as a new seed and is no continuation; after
EXTINCT it ends with EXTINCT at generation 1 and the population as its score. -/
def Obligations.SecondRunIsFresh : Prop :=
  ∀ s t u : State, exec .run s = .next t → exec .run t = .next u →
    (∃ v, exec .run { s with grid := t.grid } = .next v ∧ u.grid = v.grid ∧ u.cause = v.cause ∧
      u.gen = v.gen ∧ u.score = v.score ∧ u.hcnt = v.hcnt ∧ u.seen = v.seen) ∧
    (t.cause = .extinct → u.cause = .extinct ∧ u.gen = 1 ∧ u.score.toNat = t.grid.pop ∧
      u.grid = t.grid)

/-! ### The sequencer, the port, reset (`10_state.md`, `30_encoding.md`, `70_reset_and_hazards.md`) -/

/-- R27: every transition of STATE. -/
def Obligations.StateTransitions : Prop :=
  (∀ (s : State) (rest : List HostEvent), s.commands = .reset :: rest →
    ∃ t, step s = .next t ∧ t.state = .seeded) ∧
  (∀ (s : State) (w : Word) (rest : List HostEvent), Accepts s w rest →
    ∃ t, step s = .next t ∧
      t.state = match decode w with
        | .ok .clr => .seeded
        | .ok (.setc row col _) => if row.toNat < 40 ∧ col.toNat < 60 then .seeded else s.state
        | .ok .step => .seeded
        | .ok .run => .terminated
        | _ => s.state) ∧
  (∀ s : State, (runInit s).state = .stepping) ∧
  (∀ s t : State, Iterating s → step s = .next t → t.state = .stepping ∨ t.state = .terminated) ∧
  (∀ s : State, s.commands = [] → s.state ≠ .stepping → step s = .next s)

/-- R281: during a run the word the host presents is not accepted and has no effect: the step is the
same whatever it is, and it stays presented. -/
def Obligations.NoCommandDuringRun : Prop :=
  ∀ (s : State) (w : Word) (rest : List HostEvent), s.state = .stepping → s.busy = true ∧
    (∀ t, step { s with commands := .command w :: rest } = .next t →
      t.commands = .command w :: rest ∧
      step { s with commands := [] } = .next { t with commands := [] }) ∧
    (∀ t, step { s with commands := [] } = .next t →
      step { s with commands := .command w :: rest }
        = .next { t with commands := .command w :: rest })

/-- R75: the state after a sequence of words is the fold of the command function over it. -/
def Obligations.WordsAreFolded : Prop :=
  ∀ (ws : List Word) (s : State) (rest : List HostEvent), s.state ≠ .stepping →
    s.commands = ws.map HostEvent.command ++ rest →
    Host.Core.run Sys2Proof.core ws.length s = acceptAll ws { s with commands := rest } ∧
    ∃ t, acceptAll ws { s with commands := rest } = .next t ∧ t.state ≠ .stepping ∧
      t.responses.length = s.responses.length + ws.length

/-- R43: the value of every piece of state after reset, and of the registers and levels read from it. Of
HIST no entry is valid. -/
def Obligations.ResetValues : Prop :=
  (∀ r c, State.reset.grid.cell r c = false) ∧ State.reset.grid = Grid.dead ∧
  State.reset.state = .seeded ∧ State.reset.cause = .none ∧ State.reset.gen = 0 ∧
  State.reset.score = 0 ∧ State.reset.hcnt = 0 ∧ State.reset.seen = [] ∧
  State.reset.busy = false ∧ State.reset.done = false ∧
  exec (.rdreg 0) State.reset = .next { State.reset with responses := [0x07E8283C] } ∧
  exec (.rdreg 1) State.reset = .next { State.reset with responses := [0x00000000] } ∧
  exec (.rdreg 5) State.reset = .next { State.reset with responses := [0x00000000] }

/-- R270 to R272 at the transaction level: a reset takes the block to the reset state whatever it was
doing, and gives no response. The host's own lists stay (log entry 6, the model's choice). -/
def Obligations.ResetFromAnyState : Prop :=
  ∀ (s : State) (rest : List HostEvent), s.commands = .reset :: rest →
    step s = .next { State.reset with commands := rest, responses := s.responses }

/-- R32 and R39: the codes of STATE and CAUSE (R26, R28), STATUS as a number and as register 1, the five
values a host can read between commands with what each stands for, and the two level outputs. -/
def Obligations.StatusValues : Prop :=
  ((stateCode .seeded).toNat = 0 ∧ (stateCode .stepping).toNat = 1 ∧
    (stateCode .terminated).toNat = 2) ∧
  ((causeCode .none).toNat = 0 ∧ (causeCode .repeated).toNat = 1 ∧ (causeCode .stable).toNat = 2 ∧
    (causeCode .extinct).toNat = 3 ∧ (causeCode .max).toNat = 4) ∧
  (∀ s : State,
    (statusValue s).toNat = 4 * (causeCode s.cause).toNat + (stateCode s.state).toNat ∧
    (regValue .status s).toNat = (statusValue s).toNat) ∧
  (∀ s : State, ReadyInv s →
    (s.state = .seeded ∧ s.cause = .none ∧ (statusValue s).toNat = 0) ∨
    (s.state = .terminated ∧ s.cause = .repeated ∧ (statusValue s).toNat = 6) ∨
    (s.state = .terminated ∧ s.cause = .stable ∧ (statusValue s).toNat = 10) ∨
    (s.state = .terminated ∧ s.cause = .extinct ∧ (statusValue s).toNat = 14) ∨
    (s.state = .terminated ∧ s.cause = .max ∧ (statusValue s).toNat = 18)) ∧
  (∀ s : State, (s.busy = true ↔ s.state = .stepping) ∧ (s.done = true ↔ s.state = .terminated))

/-- R270 and R271 at the pins: an edge with `rst` at 1 gives the reset state and no response, whatever
the port was doing; `cmd_ready` is 0 while `rst` is 1 and 1 once it is 0, and the next edge with `rst`
at 0 accepts a word that is presented. -/
def Obligations.ResetEdge : Prop :=
  ∀ (i : Pins) (p : PortState), i.rst = true →
    (clockEdge i p).block =
      { State.reset with commands := p.block.commands, responses := p.block.responses } ∧
    (clockEdge i p).rsp = none ∧ (clockEdge i p).block.busy = false ∧
    (clockEdge i p).block.done = false ∧
    cmdReady true p = false ∧ cmdReady true (clockEdge i p) = false ∧
    cmdReady false (clockEdge i p) = true ∧
    (∀ w, ∃ n, (clockEdge ⟨false, true, w⟩ (clockEdge i p)).phase = .working w n)

/-- R111: a word presented while `cmd_ready` is 0 is not accepted, has no effect and gets no response:
the edge is the same whatever the command pins hold. -/
def Obligations.UnreadyPortIgnoresWords : Prop :=
  ∀ (i j : Pins) (p : PortState), i.rst = false → j.rst = false → cmdReady false p = false →
    clockEdge i p = clockEdge j p

/-- R111: a word accepted is answered once, after finitely many edges, with the whole effect of its
command; until then `cmd_ready` is 0, no response is presented, and RUN keeps `busy` at 1 (R281). The
response is presented for one clock, and after finitely many more edges `cmd_ready` is 1 again, with the
block as the command left it. The counts of edges are free. That no response is presented in the clock
right after the accepting edge (no `pins`) is the model's choice and no rule of the spec: R111 and R290 leave the
least number of clocks open (log entry 10). -/
def Obligations.AcceptedWordIsAnswered : Prop :=
  ∀ (p : PortState) (w : Word), cmdReady false p = true →
    ∃ n m, ∀ pins : List Pins, (∀ i ∈ pins, i.rst = false) →
      let q := clockEdges (⟨false, true, w⟩ :: pins) p
      (pins.length = n + 1 → ∃ t r,
        acceptWord w p.block = .next t ∧ t.responses = p.block.responses ++ [r] ∧
        q.block = t ∧ q.rsp = some r ∧
        (∀ i, (clockEdge i q).rsp = none) ∧
        (∀ more : List Pins, (∀ i ∈ more, i.rst = false) → more.length ≤ m →
          (clockEdges more q).block = t ∧
          (cmdReady false (clockEdges more q) = true ↔ more.length = m))) ∧
      (pins.length ≤ n →
        cmdReady false q = false ∧ q.rsp = none ∧ q.block.responses = p.block.responses ∧
        (decode w = .ok .run → q.block.busy = true))

/-- R82 and R256: in a system of several blocks a step of one changes no other and depends on no
other. -/
def Obligations.BlocksAreIndependent : Prop :=
  ∀ (k : Nat) (blocks after : List State), systemStep k blocks = .next after →
    after.length = blocks.length ∧ (∀ j, j ≠ k → after[j]? = blocks[j]?) ∧
    (∀ s, blocks[k]? = some s → ∃ t, after[k]? = some t ∧ step s = .next t)

/-! ### The loader and the pseudo-commands (`43_seed_loader.md`, `30_encoding.md`) -/

/-- R210 and R211: eight bits a byte, most significant first, in the order of the word. -/
def Obligations.EncodeBitsOrder : Prop :=
  ∀ w : List Byte, (encodeBits w).length = 8 * w.length ∧
    ∀ (k i : Nat) (h : k < w.length), i < 8 →
      (encodeBits w)[8 * k + i]? = some ((w[k]).getLsbD (7 - i))

/-- R215 to R218: the alive cells of a seed are exactly the placed 1 bits. -/
def Obligations.SeedPlacement : Prop :=
  ∀ (bits : List Bool) (r c : Nat), r < 40 → c < 60 →
    let len := bits.length
    let rows := (len + 59) / 60
    let cnt := fun k : Nat => min 60 (len - 60 * k)
    ((seedGrid bits).cell r c = true ↔
      ∃ k i : Nat, k < rows ∧ i < cnt k ∧ (r : Int) = 20 - ((rows / 2 : Nat) : Int) + k ∧
        c = (60 - cnt k) / 2 + i ∧ bits[60 * k + i]? = some true)

/-- R219: which block rows are kept, and that the bits of a dropped row change nothing of the seed. -/
def Obligations.DroppedBlockRows : Prop :=
  (∀ len k : Nat, k < rowsNeeded len →
    ((0 ≤ vstart len + k ∧ vstart len + k < 40) ↔
      (rowsNeeded len ≤ 40 ∨ (rowsNeeded len = 41 ∧ k < 40) ∨
        (42 ≤ rowsNeeded len ∧ rowsNeeded len / 2 ≤ k + 20 ∧ k ≤ rowsNeeded len / 2 + 19)))) ∧
  (∀ bits other : List Bool, bits.length = other.length →
    (∀ k i : Nat, k < rowsNeeded bits.length → i < 60 → 0 ≤ vstart bits.length + k →
      vstart bits.length + k < 40 → bits[60 * k + i]? = other[60 * k + i]?) →
    seedGrid bits = seedGrid other)

/-- R223: the empty word, and any word of zero bytes, seed the dead grid. -/
def Obligations.ZeroWordSeedsDeadGrid : Prop :=
  seedImage [] = Grid.dead ∧ ∀ n, seedImage (List.replicate n 0) = Grid.dead

/-- R225: the seed of "A" and the words of its SEED. -/
def Obligations.SeedOfLetterA : Prop :=
  (∀ r c, r < 40 → c < 60 →
    ((seedImage [0x41]).cell r c = true ↔ r = 20 ∧ (c = 27 ∨ c = 33))) ∧
  (encodeBits [0x41]).length = 8 ∧ rowsNeeded 8 = 1 ∧ vstart 8 = 20 ∧ rowCount 8 0 = 8 ∧
  startCol 8 0 = 26 ∧
  assemble [.seed [0x41]] = [0x10000000, 0x251B0001, 0x25210001]

/-- R212 and U1, the recommended treatment: a word with a character code above 255 is refused, and
every other word is taken byte for byte. -/
def Obligations.WideCharactersRefused : Prop :=
  ∀ cs : List Nat,
    ((∃ p ∈ cs, 256 ≤ p) → seedImageOf cs = none) ∧
    ((∀ p ∈ cs, p < 256) → seedImageOf cs = some (seedImage (cs.map (BitVec.ofNat 8))) ∧
      seedImageNarrowed cs = seedImage (cs.map (BitVec.ofNat 8)))

/-- R104, LOADGRID, and R275 (1): the expansion brings GRID to the grid from any state, one response
for each command. -/
def Obligations.LoadGridLoads : Prop :=
  ∀ (g : Grid) (s : State),
    execAll (loadGrid g) s = .next { s with
      grid := g, state := .seeded, cause := .none
      responses := s.responses ++ List.replicate (g.pop + 1) 0x00000000 }

/-- R104, RUNWORD, R171 and R222: its last two responses are the GEN and the SCORE of a run of
`SeedImage(word)`, the document's `run(word)`, whatever the block did before. -/
def Obligations.RunWordAnswersResult : Prop :=
  ∀ (w : List Byte) (s : State), ∃ t u, execAll (runWord w) s = .next t ∧
    exec .run { State.reset with grid := seedImage w } = .next u ∧
    t.gen = u.gen ∧ t.score = u.score ∧ t.cause = u.cause ∧
    t.responses = s.responses ++ List.replicate ((seedImage w).pop + 2) 0x00000000
      ++ [BitVec.ofNat 32 u.gen.toNat, BitVec.ofNat 32 u.score.toNat]
end

