-- ==== Sys2Proof/Laws/Decode.lean ====
section
/-! SUPPORT. The fields of a command word as numbers, and what the decoder answers for each opcode. -/

namespace Sys2Proof

theorem opField_toNat (w : Word) : (opField w).toNat = w.toNat / 2 ^ 28 := by
  have := w.isLt
  simp only [opField, BitVec.extractLsb'_toNat, Nat.shiftRight_eq_div_pow]
  omega

theorem rowField_eq (w : Word) : rowField w = BitVec.ofNat 6 (w.toNat / 2 ^ 22) := by
  apply BitVec.eq_of_toNat_eq
  simp [rowField, Nat.shiftRight_eq_div_pow]

theorem colField_eq (w : Word) : colField w = BitVec.ofNat 6 (w.toNat / 2 ^ 16) := by
  apply BitVec.eq_of_toNat_eq
  simp [colField, Nat.shiftRight_eq_div_pow]

theorem regField_eq (w : Word) : regField w = BitVec.ofNat 4 (w.toNat / 2 ^ 24) := by
  apply BitVec.eq_of_toNat_eq
  simp [regField, Nat.shiftRight_eq_div_pow]

theorem vField_eq (w : Word) : vField w = (w.toNat % 2 == 1) := by
  rw [vField, BitVec.getLsbD, Nat.testBit_zero]
  rcases Nat.mod_two_eq_zero_or_one w.toNat with h | h <;> simp [h]

theorem extract_ne_zero (w : Word) (lo n : Nat) :
    (w.extractLsb' lo n != 0) = decide (w.toNat / 2 ^ lo % 2 ^ n ≠ 0) := by
  rw [Bool.eq_iff_iff, bne_iff_ne, decide_eq_true_iff, ne_eq, ne_eq, ← BitVec.toNat_inj]
  simp [Nat.shiftRight_eq_div_pow]

/-- The checks of R96 that raise ILLEGAL, on the word as a number. -/
theorem illegalWord_eq (w : Word) :
    illegalWord w =
      if 8 ≤ w.toNat / 2 ^ 28 then true
      else if w.toNat / 2 ^ 28 = 0 ∨ w.toNat / 2 ^ 28 = 1 ∨ w.toNat / 2 ^ 28 = 5 ∨
          w.toNat / 2 ^ 28 = 6 then decide (w.toNat % 2 ^ 28 ≠ 0)
      else if w.toNat / 2 ^ 28 = 2 then decide (w.toNat / 2 % 2 ^ 15 ≠ 0)
      else if w.toNat / 2 ^ 28 = 3 ∨ w.toNat / 2 ^ 28 = 4 then decide (w.toNat % 2 ^ 16 ≠ 0)
      else decide (w.toNat % 2 ^ 24 ≠ 0) := by
  simp only [illegalWord, opField_toNat, extract_ne_zero, Nat.pow_zero, Nat.div_one, Nat.pow_one]

end Sys2Proof
end

