-- ==== Sys2Proof/Laws/Grid.lean ====
section
/-! SUPPORT. The small lemmas of grids: what each operation does to a cell, when two grids are equal,
and what a population sums. -/

namespace Sys2Proof.Machine

theorem testBit_bitsOf (f : Nat → Bool) (n i : Nat) :
    (bitsOf f n).testBit i = (decide (i < n) && f i) := by
  induction n with
  | zero => simp [bitsOf]
  | succ n ih =>
    rcases Nat.lt_trichotomy i n with h | rfl | h
    · simp [bitsOf, ih, h, Nat.lt_succ_of_lt h, Nat.testBit_shiftLeft, Nat.not_le.2 h]
    · cases h : f i <;> simp [bitsOf, ih, Nat.testBit_shiftLeft, h]
    · have h1 : ¬ i < n := by omega
      have h2 : ¬ i < n + 1 := by omega
      have h3 : (f n).toNat.testBit (i - n) = false := by
        apply Nat.testBit_lt_two_pow
        calc (f n).toNat < 2 ^ 1 := by cases f n <;> decide
          _ ≤ 2 ^ (i - n) := Nat.pow_le_pow_right (by decide) (by omega)
      simp [bitsOf, ih, h1, h2, Nat.testBit_shiftLeft, h3]

theorem getLsbD_rowOf (f : Nat → Bool) (c : Nat) :
    (rowOf f).getLsbD c = (decide (c < 60) && f c) := by
  simp [rowOf, BitVec.getLsbD_ofNat, testBit_bitsOf]

@[simp] theorem getElem_rowOf (f : Nat → Bool) (c : Nat) (h : c < 60) : (rowOf f)[c] = f c := by
  rw [← BitVec.getLsbD_eq_getElem, getLsbD_rowOf]
  simp [h]

@[simp] theorem cell_ofFn (f : Nat → Nat → Bool) (r c : Nat) :
    (Grid.ofFn f).cell r c = (decide (r < 40) && decide (c < 60) && f r c) := by
  by_cases h : r < 40 <;> simp [Grid.cell, Grid.row, Grid.ofFn, h, getLsbD_rowOf]

@[simp] theorem cell_dead (r c : Nat) : Grid.dead.cell r c = false := by
  by_cases h : r < 40 <;> simp [Grid.cell, Grid.row, Grid.dead, h]

/-- A position beyond the grid is never alive. -/
theorem cell_of_outside (g : Grid) {r c : Nat} (h : ¬ (r < 40 ∧ c < 60)) : g.cell r c = false := by
  by_cases hr : r < 40
  · exact BitVec.getLsbD_of_ge _ _ (by omega)
  · simp [Grid.cell, Grid.row, hr]

/-- Grids with the same cells are equal (R14). -/
theorem grid_ext {g h : Grid} (e : ∀ r c, r < 40 → c < 60 → g.cell r c = h.cell r c) : g = h := by
  obtain ⟨g⟩ := g
  obtain ⟨h⟩ := h
  congr 1
  ext r hr c hc
  simpa [Grid.cell, Grid.row, hr, hc] using e r c hr hc

theorem grid_eq_iff {g h : Grid} : g = h ↔ ∀ r c, r < 40 → c < 60 → g.cell r c = h.cell r c :=
  ⟨fun e _ _ _ _ => e ▸ rfl, grid_ext⟩

/-- SETC's write, cell by cell (R123). -/
theorem cell_setCell (g : Grid) (r c : Nat) (v : Bool) (y x : Nat) :
    (g.setCell r c v).cell y x =
      if y = r ∧ x = c ∧ r < 40 ∧ c < 60 then v else g.cell y x := by
  by_cases hy : y < 40
  · by_cases e : y = r
    · subst e
      by_cases hx : x < 60
      · by_cases ec : x = c
        · subst ec; simp [Grid.cell, Grid.row, Grid.setCell, hy, hx]
        · simp [Grid.cell, Grid.row, Grid.setCell, hy, hx, ec]
      · rw [cell_of_outside _ (by omega), cell_of_outside _ (by omega)]
        have : ¬ (x = c ∧ c < 60) := by omega
        simp_all
    · have e' : ¬ r = y := fun h => e h.symm
      simp [Grid.cell, Grid.row, Grid.setCell, hy, e, e']
  · rw [cell_of_outside _ (by omega), cell_of_outside _ (by omega)]
    have : ¬ (y = r ∧ x = c ∧ r < 40 ∧ c < 60) := by omega
    simp [this]

/-- Two writes to different cells commute (R123). -/
theorem setCell_comm (g : Grid) {r c y x : Nat} (v w : Bool) (h : ¬ (r = y ∧ c = x)) :
    (g.setCell r c v).setCell y x w = (g.setCell y x w).setCell r c v := by
  refine grid_ext fun a b _ _ => ?_
  simp only [cell_setCell]
  by_cases h1 : a = y ∧ b = x <;> by_cases h2 : a = r ∧ b = c <;> simp_all
  all_goals (split_ifs <;> simp_all)

/-- `cell(g, y, x)` in the words of R142. -/
theorem cellAt_eq (g : Grid) (y x : Int) :
    g.cellAt y x =
      if 0 ≤ y ∧ y < 40 ∧ 0 ≤ x ∧ x < 60 then g.cell y.toNat x.toNat else false := by
  split_ifs with h
  · obtain ⟨a, rfl⟩ := Int.eq_ofNat_of_zero_le h.1
    obtain ⟨b, rfl⟩ := Int.eq_ofNat_of_zero_le h.2.2.1
    rfl
  · cases y with
    | ofNat a =>
      cases x with
      | ofNat b =>
        refine cell_of_outside g fun hab => h ?_
        simp only [Int.ofNat_eq_natCast]
        omega
      | negSucc b => rfl
    | negSucc a => cases x <;> rfl

@[simp] theorem cell_next (g : Grid) (r c : Nat) :
    g.next.cell r c = (decide (r < 40) && decide (c < 60) && rule (g.cell r c) (g.nCount r c)) :=
  cell_ofFn _ r c

theorem sumTo_eq_sum (f : Nat → Nat) (n : Nat) : sumTo f n = ∑ i ∈ Finset.range n, f i := by
  induction n with
  | zero => rfl
  | succ n ih => rw [sumTo, ih, Finset.sum_range_succ]

theorem sumTo_eq_zero_iff (f : Nat → Nat) (n : Nat) : sumTo f n = 0 ↔ ∀ i, i < n → f i = 0 := by
  simp [sumTo_eq_sum, Finset.sum_eq_zero_iff]

theorem sumTo_le (f : Nat → Nat) (n b : Nat) (h : ∀ i, i < n → f i ≤ b) : sumTo f n ≤ n * b := by
  induction n with
  | zero => simp [sumTo]
  | succ n ih =>
    have := ih fun i hi => h i (by omega)
    have := h n (by omega)
    simp only [sumTo, Nat.add_mul]
    omega

@[simp] theorem cellAt_natCast (g : Grid) (r c : Nat) : g.cellAt r c = g.cell r c := rfl

@[simp] theorem cellAt_above (g : Grid) (x : Int) : g.cellAt (-1) x = false := by
  cases x <;> rfl

@[simp] theorem cellAt_leftOf (g : Grid) (y : Int) : g.cellAt y (-1) = false := by
  cases y <;> rfl

/-- The neighbour count over the cells themselves: nothing lies above row 0 or left of column 0, and no
cell below row 39 or right of column 59 is alive (R142, R144). -/
theorem nCount_eq_cells (g : Grid) (r c : Nat) :
    g.nCount r c =
      (if r = 0 then 0 else
        (if c = 0 then 0 else (g.cell (r - 1) (c - 1)).toNat) + (g.cell (r - 1) c).toNat
          + (g.cell (r - 1) (c + 1)).toNat)
      + (if c = 0 then 0 else (g.cell r (c - 1)).toNat) + (g.cell r (c + 1)).toNat
      + (if c = 0 then 0 else (g.cell (r + 1) (c - 1)).toNat) + (g.cell (r + 1) c).toNat
      + (g.cell (r + 1) (c + 1)).toNat := by
  have pred (n : Nat) : ((n + 1 : Nat) : Int) - 1 = (n : Int) := by omega
  have succ (n : Nat) : (n : Int) + 1 = ((n + 1 : Nat) : Int) := rfl
  have low : ((0 : Nat) : Int) - 1 = -1 := rfl
  unfold Grid.nCount
  rcases r with _ | r <;> rcases c with _ | c <;>
    simp only [pred, succ, low, cellAt_natCast, cellAt_above, cellAt_leftOf] <;> simp

theorem toNat_bool_le (b : Bool) : b.toNat ≤ 1 := by cases b <;> simp

theorem sumTo_bool_le (f : Nat → Bool) (n : Nat) : sumTo (fun c => (f c).toNat) n ≤ n := by
  have := sumTo_le (fun c => (f c).toNat) n 1 fun i _ => toNat_bool_le (f i)
  omega

/-- A grid has at most 2400 alive cells. -/
theorem pop_le (g : Grid) : g.pop ≤ 2400 := by
  have := sumTo_le (fun r => sumTo (fun c => (g.cell r c).toNat) 60) 40 60
    fun r _ => sumTo_bool_le (g.cell r) 60
  simpa [Grid.pop] using this

/-- A cell has at most eight alive neighbours. -/
theorem nCount_le (g : Grid) (r c : Nat) : g.nCount r c ≤ 8 := by
  have h (y x : Int) := toNat_bool_le (g.cellAt y x)
  have := h (r - 1) (c - 1); have := h (r - 1) c; have := h (r - 1) (c + 1)
  have := h r (c - 1); have := h r (c + 1)
  have := h (r + 1) (c - 1); have := h (r + 1) c; have := h (r + 1) (c + 1)
  unfold Grid.nCount
  omega

end Sys2Proof.Machine
end

