-- ==== Sys2Proof/Laws/State.lean ====
section
/-! SUPPORT. One lemma per field per update of State, true by rfl, so that no later proof unfolds a
record update. -/

namespace Sys2Proof.Machine

@[simp] theorem respond_grid (v : Payload) (s : State) : (respond v s).grid = s.grid := rfl
@[simp] theorem respond_state (v : Payload) (s : State) : (respond v s).state = s.state := rfl
@[simp] theorem respond_cause (v : Payload) (s : State) : (respond v s).cause = s.cause := rfl
@[simp] theorem respond_gen (v : Payload) (s : State) : (respond v s).gen = s.gen := rfl
@[simp] theorem respond_score (v : Payload) (s : State) : (respond v s).score = s.score := rfl
@[simp] theorem respond_hcnt (v : Payload) (s : State) : (respond v s).hcnt = s.hcnt := rfl
@[simp] theorem respond_hist (v : Payload) (s : State) : (respond v s).hist = s.hist := rfl
@[simp] theorem respond_commands (v : Payload) (s : State) : (respond v s).commands = s.commands := rfl
@[simp] theorem respond_responses (v : Payload) (s : State) : (respond v s).responses = s.responses ++ [okWord v] := rfl

@[simp] theorem raise_grid (e : CommandError) (s : State) : (raise e s).grid = s.grid := rfl
@[simp] theorem raise_state (e : CommandError) (s : State) : (raise e s).state = s.state := rfl
@[simp] theorem raise_cause (e : CommandError) (s : State) : (raise e s).cause = s.cause := rfl
@[simp] theorem raise_gen (e : CommandError) (s : State) : (raise e s).gen = s.gen := rfl
@[simp] theorem raise_score (e : CommandError) (s : State) : (raise e s).score = s.score := rfl
@[simp] theorem raise_hcnt (e : CommandError) (s : State) : (raise e s).hcnt = s.hcnt := rfl
@[simp] theorem raise_hist (e : CommandError) (s : State) : (raise e s).hist = s.hist := rfl
@[simp] theorem raise_commands (e : CommandError) (s : State) : (raise e s).commands = s.commands := rfl
@[simp] theorem raise_responses (e : CommandError) (s : State) : (raise e s).responses = s.responses ++ [errorWord e] := rfl

@[simp] theorem writeGrid_grid (g : Grid) (s : State) : (writeGrid g s).grid = g := rfl
@[simp] theorem writeGrid_state (g : Grid) (s : State) : (writeGrid g s).state = s.state := rfl
@[simp] theorem writeGrid_cause (g : Grid) (s : State) : (writeGrid g s).cause = s.cause := rfl
@[simp] theorem writeGrid_gen (g : Grid) (s : State) : (writeGrid g s).gen = s.gen := rfl
@[simp] theorem writeGrid_score (g : Grid) (s : State) : (writeGrid g s).score = s.score := rfl
@[simp] theorem writeGrid_hcnt (g : Grid) (s : State) : (writeGrid g s).hcnt = s.hcnt := rfl
@[simp] theorem writeGrid_hist (g : Grid) (s : State) : (writeGrid g s).hist = s.hist := rfl
@[simp] theorem writeGrid_commands (g : Grid) (s : State) : (writeGrid g s).commands = s.commands := rfl
@[simp] theorem writeGrid_responses (g : Grid) (s : State) : (writeGrid g s).responses = s.responses := rfl

@[simp] theorem markSeeded_grid (s : State) : (markSeeded s).grid = s.grid := rfl
@[simp] theorem markSeeded_state (s : State) : (markSeeded s).state = .seeded := rfl
@[simp] theorem markSeeded_cause (s : State) : (markSeeded s).cause = .none := rfl
@[simp] theorem markSeeded_gen (s : State) : (markSeeded s).gen = s.gen := rfl
@[simp] theorem markSeeded_score (s : State) : (markSeeded s).score = s.score := rfl
@[simp] theorem markSeeded_hcnt (s : State) : (markSeeded s).hcnt = s.hcnt := rfl
@[simp] theorem markSeeded_hist (s : State) : (markSeeded s).hist = s.hist := rfl
@[simp] theorem markSeeded_commands (s : State) : (markSeeded s).commands = s.commands := rfl
@[simp] theorem markSeeded_responses (s : State) : (markSeeded s).responses = s.responses := rfl

@[simp] theorem terminate_grid (c : Cause) (s : State) : (terminate c s).grid = s.grid := rfl
@[simp] theorem terminate_state (c : Cause) (s : State) : (terminate c s).state = .terminated := rfl
@[simp] theorem terminate_cause (c : Cause) (s : State) : (terminate c s).cause = c := rfl
@[simp] theorem terminate_gen (c : Cause) (s : State) : (terminate c s).gen = s.gen := rfl
@[simp] theorem terminate_score (c : Cause) (s : State) : (terminate c s).score = s.score := rfl
@[simp] theorem terminate_hcnt (c : Cause) (s : State) : (terminate c s).hcnt = s.hcnt := rfl
@[simp] theorem terminate_hist (c : Cause) (s : State) : (terminate c s).hist = s.hist := rfl
@[simp] theorem terminate_commands (c : Cause) (s : State) : (terminate c s).commands = s.commands := rfl
@[simp] theorem terminate_responses (c : Cause) (s : State) : (terminate c s).responses = s.responses := rfl

@[simp] theorem storeGrid_grid (s : State) : (storeGrid s).grid = s.grid := rfl
@[simp] theorem storeGrid_state (s : State) : (storeGrid s).state = s.state := rfl
@[simp] theorem storeGrid_cause (s : State) : (storeGrid s).cause = s.cause := rfl
@[simp] theorem storeGrid_gen (s : State) : (storeGrid s).gen = s.gen := rfl
@[simp] theorem storeGrid_score (s : State) : (storeGrid s).score = s.score := rfl
@[simp] theorem storeGrid_hcnt (s : State) : (storeGrid s).hcnt = s.hcnt + 1 := rfl
@[simp] theorem storeGrid_hist (s : State) : (storeGrid s).hist = storeAt s.hist s.hcnt.toNat s.grid := rfl
@[simp] theorem storeGrid_commands (s : State) : (storeGrid s).commands = s.commands := rfl
@[simp] theorem storeGrid_responses (s : State) : (storeGrid s).responses = s.responses := rfl

@[simp] theorem runInit_grid (s : State) : (runInit s).grid = s.grid := rfl
@[simp] theorem runInit_state (s : State) : (runInit s).state = .stepping := rfl
@[simp] theorem runInit_cause (s : State) : (runInit s).cause = .none := rfl
@[simp] theorem runInit_gen (s : State) : (runInit s).gen = 0 := rfl
@[simp] theorem runInit_score (s : State) : (runInit s).score = BitVec.ofNat 22 s.grid.pop := rfl
@[simp] theorem runInit_hcnt (s : State) : (runInit s).hcnt = 0 := rfl
@[simp] theorem runInit_hist (s : State) : (runInit s).hist = s.hist := rfl
@[simp] theorem runInit_commands (s : State) : (runInit s).commands = s.commands := rfl
@[simp] theorem runInit_responses (s : State) : (runInit s).responses = s.responses := rfl

@[simp] theorem countIteration_grid (s : State) : (countIteration s).grid = s.grid := rfl
@[simp] theorem countIteration_state (s : State) : (countIteration s).state = s.state := rfl
@[simp] theorem countIteration_cause (s : State) : (countIteration s).cause = s.cause := rfl
@[simp] theorem countIteration_gen (s : State) : (countIteration s).gen = s.gen + 1 := rfl
@[simp] theorem countIteration_score (s : State) : (countIteration s).score = s.score := rfl
@[simp] theorem countIteration_hcnt (s : State) : (countIteration s).hcnt = s.hcnt := rfl
@[simp] theorem countIteration_hist (s : State) : (countIteration s).hist = s.hist := rfl
@[simp] theorem countIteration_commands (s : State) : (countIteration s).commands = s.commands := rfl
@[simp] theorem countIteration_responses (s : State) : (countIteration s).responses = s.responses := rfl

@[simp] theorem scoreNext_grid (g : Grid) (s : State) : (scoreNext g s).grid = s.grid := rfl
@[simp] theorem scoreNext_state (g : Grid) (s : State) : (scoreNext g s).state = s.state := rfl
@[simp] theorem scoreNext_cause (g : Grid) (s : State) : (scoreNext g s).cause = s.cause := rfl
@[simp] theorem scoreNext_gen (g : Grid) (s : State) : (scoreNext g s).gen = s.gen := rfl
@[simp] theorem scoreNext_score (g : Grid) (s : State) : (scoreNext g s).score = s.score + BitVec.ofNat 22 g.pop := rfl
@[simp] theorem scoreNext_hcnt (g : Grid) (s : State) : (scoreNext g s).hcnt = s.hcnt := rfl
@[simp] theorem scoreNext_hist (g : Grid) (s : State) : (scoreNext g s).hist = s.hist := rfl
@[simp] theorem scoreNext_commands (g : Grid) (s : State) : (scoreNext g s).commands = s.commands := rfl
@[simp] theorem scoreNext_responses (g : Grid) (s : State) : (scoreNext g s).responses = s.responses := rfl

@[simp] theorem resetBlock_grid (s : State) : (resetBlock s).grid = State.reset.grid := rfl
@[simp] theorem resetBlock_state (s : State) : (resetBlock s).state = State.reset.state := rfl
@[simp] theorem resetBlock_cause (s : State) : (resetBlock s).cause = State.reset.cause := rfl
@[simp] theorem resetBlock_gen (s : State) : (resetBlock s).gen = State.reset.gen := rfl
@[simp] theorem resetBlock_score (s : State) : (resetBlock s).score = State.reset.score := rfl
@[simp] theorem resetBlock_hcnt (s : State) : (resetBlock s).hcnt = State.reset.hcnt := rfl
@[simp] theorem resetBlock_hist (s : State) : (resetBlock s).hist = State.reset.hist := rfl
@[simp] theorem resetBlock_commands (s : State) : (resetBlock s).commands = s.commands := rfl
@[simp] theorem resetBlock_responses (s : State) : (resetBlock s).responses = s.responses := rfl

@[simp] theorem present_grid (w : Word) (s : State) : (present w s).grid = s.grid := rfl
@[simp] theorem present_state (w : Word) (s : State) : (present w s).state = s.state := rfl
@[simp] theorem present_cause (w : Word) (s : State) : (present w s).cause = s.cause := rfl
@[simp] theorem present_gen (w : Word) (s : State) : (present w s).gen = s.gen := rfl
@[simp] theorem present_score (w : Word) (s : State) : (present w s).score = s.score := rfl
@[simp] theorem present_hcnt (w : Word) (s : State) : (present w s).hcnt = s.hcnt := rfl
@[simp] theorem present_hist (w : Word) (s : State) : (present w s).hist = s.hist := rfl
@[simp] theorem present_commands (w : Word) (s : State) : (present w s).commands = .command w :: s.commands := rfl
@[simp] theorem present_responses (w : Word) (s : State) : (present w s).responses = s.responses := rfl

@[simp] theorem markSeeded_seen (s : State) : (markSeeded s).seen = s.seen := rfl
@[simp] theorem writeGrid_seen (g : Grid) (s : State) : (writeGrid g s).seen = s.seen := rfl
@[simp] theorem respond_seen (v : Payload) (s : State) : (respond v s).seen = s.seen := rfl
@[simp] theorem raise_seen (e : CommandError) (s : State) : (raise e s).seen = s.seen := rfl
@[simp] theorem terminate_seen (c : Cause) (s : State) : (terminate c s).seen = s.seen := rfl
@[simp] theorem runInit_seen (s : State) : (runInit s).seen = [] := rfl
@[simp] theorem countIteration_seen (s : State) : (countIteration s).seen = s.seen := rfl
@[simp] theorem scoreNext_seen (g : Grid) (s : State) : (scoreNext g s).seen = s.seen := rfl

end Sys2Proof.Machine
end

