-- ==== Sys2Proof/Laws/Operations.lean ====
section
/-! SUPPORT. For each shared operation one lemma that says once everything it can do. -/

namespace Sys2Proof.Machine

/-! ### Operands -/

theorem cellOperand_of_inRange {row col : CellField} (h : row.toNat < 40 ∧ col.toNat < 60) :
    cellOperand row col = some (row.toNat, col.toNat) := by
  simp [cellOperand, h]

theorem cellOperand_of_outside {row col : CellField} (h : ¬ (row.toNat < 40 ∧ col.toNat < 60)) :
    cellOperand row col = none := by
  simp [cellOperand, h]

/-- A register number names a register exactly below 6 (R41). -/
theorem regOperand_eq_none_iff (reg : RegField) : regOperand reg = none ↔ 6 ≤ reg.toNat := by
  revert reg; decide

/-! ### The seen store -/

theorem member_iff (g : Grid) (s : State) : member g s = true ↔ g ∈ s.seen := by
  simp [member]

theorem take_storeAt {h : List Grid} {k : Nat} (g : Grid) (hk : k ≤ h.length) :
    (storeAt h k g).take (k + 1) = h.take k ++ [g] := by
  simp [storeAt, List.take_append, Nat.min_eq_left hk]

theorem length_storeAt {h : List Grid} {k : Nat} (g : Grid) (hk : k ≤ h.length) :
    (storeAt h k g).length = max h.length (k + 1) := by
  simp [storeAt, Nat.min_eq_left hk]
  omega

/-- GEN and HCNT count up without a wrap below their top value (R200, R202). -/
theorem toNat_succ {x : BitVec 10} (h : x.toNat < 1023) : (x + 1).toNat = x.toNat + 1 := by
  have : (1 : BitVec 10).toNat = 1 := rfl
  rw [BitVec.toNat_add, this]
  omega

/-- Storing appends the grid to the valid entries (R181). -/
theorem storeGrid_seen {s : State} (hk : s.hcnt.toNat ≤ s.hist.length) (hn : s.hcnt.toNat < 1023) :
    (storeGrid s).seen = s.seen ++ [s.grid] := by
  simp only [State.seen, storeGrid_hist, storeGrid_hcnt, toNat_succ hn, take_storeAt _ hk]

/-! ### One iteration of a run -/

/-- What `settle` does, by cases (R183 to R186). -/
theorem settle_cases (g : Grid) (s : State) :
    (g = s.grid ∧ settle g s = terminate .stable (scoreNext g s)) ∨
    (g ≠ s.grid ∧ g.pop = 0 ∧ settle g s = terminate .extinct (scoreNext g s)) ∨
    (g ≠ s.grid ∧ g.pop ≠ 0 ∧ settle g s = writeGrid g (scoreNext g s)) := by
  by_cases h : g = s.grid
  · exact .inl ⟨h, by simp [settle, ← h]⟩
  · by_cases e : g.pop = 0
    · exact .inr (.inl ⟨h, e, by simp [settle, h, Grid.extinct, e]⟩)
    · exact .inr (.inr ⟨h, e, by simp [settle, h, Grid.extinct, e]⟩)

/-- What `runIter` does, by cases (R176). -/
theorem runIter_cases (s : State) :
    (1000 ≤ s.gen.toNat ∧ runIter s = terminate .max s) ∨
    (s.gen.toNat < 1000 ∧ s.grid ∈ s.seen ∧
      runIter s = terminate .repeated (countIteration s)) ∨
    (s.gen.toNat < 1000 ∧ s.grid ∉ s.seen ∧
      runIter s = settle s.grid.next (storeGrid (countIteration s))) := by
  by_cases h : 1000 ≤ s.gen.toNat
  · exact .inl ⟨h, by simp [runIter, h]⟩
  · have h' : s.gen.toNat < 1000 := by omega
    by_cases m : s.grid ∈ s.seen
    · exact .inr (.inl ⟨h', m, by simp [runIter, Nat.not_le.2 h', member, m]⟩)
    · exact .inr (.inr ⟨h', m, by simp [runIter, Nat.not_le.2 h', member, m]⟩)

/-- `RunIter` touches nothing of the port. -/
@[simp] theorem runIter_commands (s : State) : (runIter s).commands = s.commands := by
  rcases runIter_cases s with ⟨-, e⟩ | ⟨-, -, e⟩ | ⟨-, -, e⟩
  · simp [e]
  · simp [e]
  · rcases settle_cases s.grid.next (storeGrid (countIteration s)) with ⟨-, f⟩ | ⟨-, -, f⟩ | ⟨-, -, f⟩
      <;> simp [e, f]

@[simp] theorem runIter_responses (s : State) : (runIter s).responses = s.responses := by
  rcases runIter_cases s with ⟨-, e⟩ | ⟨-, -, e⟩ | ⟨-, -, e⟩
  · simp [e]
  · simp [e]
  · rcases settle_cases s.grid.next (storeGrid (countIteration s)) with ⟨-, f⟩ | ⟨-, -, f⟩ | ⟨-, -, f⟩
      <;> simp [e, f]

/-! ### The loop -/

theorem runLoop_of_ended {s : State} (h : s.state ≠ .stepping) (n : Nat) : runLoop n s = s := by
  cases n <;> simp [runLoop, h]

theorem runLoop_of_stepping {s : State} (h : s.state = .stepping) (n : Nat) :
    runLoop (n + 1) s = runLoop n (runIter s) := by
  simp [runLoop, h]

@[simp] theorem runLoop_commands (n : Nat) (s : State) : (runLoop n s).commands = s.commands := by
  induction n generalizing s with
  | zero => rfl
  | succ n ih =>
    by_cases h : s.state = .stepping
    · rw [runLoop_of_stepping h, ih, runIter_commands]
    · rw [runLoop_of_ended h]

@[simp] theorem runLoop_responses (n : Nat) (s : State) :
    (runLoop n s).responses = s.responses := by
  induction n generalizing s with
  | zero => rfl
  | succ n ih =>
    by_cases h : s.state = .stepping
    · rw [runLoop_of_stepping h, ih, runIter_responses]
    · rw [runLoop_of_ended h]

/-! ### The commands and the step -/

/-! The equation of each command over the shared operations; a proof rewrites with these, since
unfolding `exec` by `rfl` lets Lean evaluate a whole grid or a whole run. -/

theorem exec_nop (s : State) : exec .nop s = .next (respond 0 s) := rfl

theorem exec_clr (s : State) :
    exec .clr s = .next (respond 0 (markSeeded (writeGrid Grid.dead s))) := rfl

theorem exec_step (s : State) :
    exec .step s = .next (respond 0 (markSeeded (writeGrid s.grid.next s))) := rfl

theorem exec_run (s : State) : exec .run s = .next (respond 0 (runLoop 1001 (runInit s))) := rfl

theorem exec_setc {row col : CellField} (h : row.toNat < 40 ∧ col.toNat < 60) (v : Bool) (s : State) :
    exec (.setc row col v) s =
      .next (respond 0 (markSeeded (writeGrid (s.grid.setCell row.toNat col.toNat v) s))) := by
  simp only [exec, execSetc, cellOperand_of_inRange h]

theorem exec_rdc {row col : CellField} (h : row.toNat < 40 ∧ col.toNat < 60) (s : State) :
    exec (.rdc row col) s =
      .next (respond (BitVec.ofNat 31 (s.grid.cell row.toNat col.toNat).toNat) s) := by
  simp only [exec, execRdc, cellOperand_of_inRange h]

theorem exec_ncnt {row col : CellField} (h : row.toNat < 40 ∧ col.toNat < 60) (s : State) :
    exec (.ncnt row col) s =
      .next (respond (BitVec.ofNat 31 (s.grid.nCount row.toNat col.toNat)) s) := by
  simp only [exec, execNcnt, cellOperand_of_inRange h]

/-- The three cell commands outside the grid. -/
theorem exec_cell_outside {row col : CellField} (h : ¬ (row.toNat < 40 ∧ col.toNat < 60)) (v : Bool)
    (s : State) :
    exec (.setc row col v) s = .next (raise .badAddr s) ∧
      exec (.rdc row col) s = .next (raise .badAddr s) ∧
      exec (.ncnt row col) s = .next (raise .badAddr s) := by
  simp [exec, execSetc, execRdc, execNcnt, cellOperand_of_outside h]

/-- Every command answers a next state, whatever the state and the operands. -/
theorem exec_next (i : Instr) (s : State) : ∃ t, exec i s = .next t := by
  cases i with
  | setc row col v => simp only [exec, execSetc]; split <;> exact ⟨_, rfl⟩
  | rdc row col => simp only [exec, execRdc]; split <;> exact ⟨_, rfl⟩
  | ncnt row col => simp only [exec, execNcnt]; split <;> exact ⟨_, rfl⟩
  | rdreg reg => simp only [exec, execRdreg]; split <;> exact ⟨_, rfl⟩
  | nop => exact ⟨_, exec_nop s⟩
  | clr => exact ⟨_, exec_clr s⟩
  | step => exact ⟨_, exec_step s⟩
  | run => exact ⟨_, exec_run s⟩

/-- What a step can do, by what the port holds (R111, R258, R270, R281). -/
theorem step_cases (s : State) :
    (s.commands = [] ∧ s.state ≠ .stepping ∧ step s = .next s) ∨
    (∃ rest, s.commands = .reset :: rest ∧
      step s = .next (resetBlock { s with commands := rest })) ∨
    (s.state = .stepping ∧ (∀ rest, s.commands ≠ .reset :: rest) ∧ step s = sequencerStep s) ∨
    (∃ w rest, s.state ≠ .stepping ∧ s.commands = .command w :: rest ∧
      step s = acceptWord w { s with commands := rest }) := by
  rcases h : s.commands with _ | ⟨⟨w⟩ | _, rest⟩
  · by_cases e : s.state = .stepping
    · exact .inr (.inr (.inl ⟨e, by simp, by simp [step, fetch, h, e]⟩))
    · exact .inl ⟨rfl, e, by simp [step, fetch, h, e]⟩
  · by_cases e : s.state = .stepping
    · exact .inr (.inr (.inl ⟨e, by simp, by simp [step, fetch, h, e]⟩))
    · exact .inr (.inr (.inr ⟨w, rest, e, rfl, by simp [step, fetch, h, e]⟩))
  · exact .inr (.inl ⟨rest, rfl, by simp [step, fetch, h]⟩)

/-- What the sequencer does in a STEPPING state, by cases (R176, log entry 5). -/
theorem sequencerStep_cases (s : State) :
    (midRun s = false ∧ sequencerStep s = .fault .brokenRun) ∨
    (midRun s = true ∧ (runIter s).state = .terminated ∧
      sequencerStep s = .next (respond 0 (runIter s))) ∨
    (midRun s = true ∧ (runIter s).state ≠ .terminated ∧ sequencerStep s = .next (runIter s)) := by
  by_cases h : midRun s = true
  · by_cases e : (runIter s).state = .terminated
    · exact .inr (.inl ⟨h, e, by simp [sequencerStep, h, e]⟩)
    · exact .inr (.inr ⟨h, e, by simp [sequencerStep, h, e]⟩)
  · exact .inl ⟨by simpa using h, by simp [sequencerStep, h]⟩

/-! ### The host's list is not read by a command -/

theorem runIter_with_commands (s : State) (c : List HostEvent) :
    runIter { s with commands := c } = { runIter s with commands := c } := by
  by_cases a : 1000 ≤ s.gen.toNat
  · simp only [runIter, a, if_true]; rfl
  have m : member (countIteration { s with commands := c }).grid (countIteration { s with commands := c })
      = member (countIteration s).grid (countIteration s) := rfl
  simp only [runIter, a, if_false, m]
  by_cases b : member (countIteration s).grid (countIteration s) = true
  · simp only [b, if_true]; rfl
  simp only [b, Bool.false_eq_true, if_false]
  simp only [settle, scoreNext_grid, storeGrid_grid, countIteration_grid]
  by_cases d : s.grid.next = s.grid
  · simp only [d, if_true]; rfl
  by_cases e : s.grid.next.extinct = true <;>
    simp [d, e, terminate, writeGrid, scoreNext, storeGrid, countIteration]

theorem runLoop_with_commands (n : Nat) (s : State) (c : List HostEvent) :
    runLoop n { s with commands := c } = { runLoop n s with commands := c } := by
  induction n generalizing s with
  | zero => rfl
  | succ n ih =>
    by_cases h : s.state = .stepping
    · rw [runLoop_of_stepping (show ({ s with commands := c } : State).state = .stepping from h),
        runLoop_of_stepping h, runIter_with_commands, ih]
    · rw [runLoop_of_ended (show ({ s with commands := c } : State).state ≠ .stepping from h),
        runLoop_of_ended h]

/-- The effect of a command does not depend on what the host presents after it (R75, R111). -/
theorem exec_with_commands (i : Instr) (s t : State) (c : List HostEvent) (h : exec i s = .next t) :
    exec i { s with commands := c } = .next { t with commands := c } := by
  cases i with
  | nop => cases h; rfl
  | clr => rw [exec_clr, Host.Outcome.next.injEq] at h; subst h; rfl
  | step =>
    rw [exec_step, Host.Outcome.next.injEq] at h
    subst h
    rw [exec_step]
    simp [respond, markSeeded, writeGrid]
  | run =>
    rw [exec_run, Host.Outcome.next.injEq] at h
    subst h
    rw [exec_run, show runInit { s with commands := c } = { runInit s with commands := c } from rfl,
      runLoop_with_commands]
    generalize runLoop 1001 (runInit s) = t
    rfl
  | setc row col v =>
    by_cases k : row.toNat < 40 ∧ col.toNat < 60
    · rw [exec_setc k, Host.Outcome.next.injEq] at h
      subst h
      rw [exec_setc k]
      simp [respond, markSeeded, writeGrid]
    · rw [(exec_cell_outside k v s).1, Host.Outcome.next.injEq] at h
      subst h
      exact (exec_cell_outside k v _).1
  | rdc row col =>
    by_cases k : row.toNat < 40 ∧ col.toNat < 60
    · rw [exec_rdc k, Host.Outcome.next.injEq] at h
      subst h
      exact exec_rdc k _
    · rw [(exec_cell_outside k true s).2.1, Host.Outcome.next.injEq] at h
      subst h
      exact (exec_cell_outside k true _).2.1
  | ncnt row col =>
    by_cases k : row.toNat < 40 ∧ col.toNat < 60
    · rw [exec_ncnt k, Host.Outcome.next.injEq] at h
      subst h
      exact exec_ncnt k _
    · rw [(exec_cell_outside k true s).2.2, Host.Outcome.next.injEq] at h
      subst h
      exact (exec_cell_outside k true _).2.2
  | rdreg reg =>
    simp only [exec, execRdreg] at h ⊢
    cases r : regOperand reg with
    | none => rw [r] at h; cases h; rfl
    | some n =>
      rw [r] at h
      simp only [Host.Outcome.next.injEq] at h
      subst h
      cases n <;> rfl

end Sys2Proof.Machine
end

