-- ==== Sys2Proof/Laws/PerInstr.lean ====
section
/-! SUPPORT. Statements made for every command as syntax, one lemma per constructor. -/

namespace Sys2Proof.Laws

/-- The opcode of a command, by the opcode map (R95). -/
def OpcodeField.number : Instr → Nat
  | .nop => 0
  | .clr => 1
  | .setc _ _ _ => 2
  | .rdc _ _ => 3
  | .ncnt _ _ => 4
  | .step => 5
  | .run => 6
  | .rdreg _ => 7

/-- The `op` field of the word of a command is its opcode, whatever its operands (R95, R102). -/
def OpcodeField.Statement (i : Instr) : Prop := (opField (encode i)).toNat = OpcodeField.number i

theorem OpcodeField.nop : OpcodeField.Statement .nop := by
  simp [OpcodeField.Statement, OpcodeField.number, encode, opField]

theorem OpcodeField.clr : OpcodeField.Statement .clr := by
  simp [OpcodeField.Statement, OpcodeField.number, encode, opField]

theorem OpcodeField.setc (row col : CellField) (v : Bool) :
    OpcodeField.Statement (.setc row col v) := by
  have := row.isLt
  have := col.isLt
  have := v.toNat_lt
  simp only [OpcodeField.Statement, OpcodeField.number, encode, opField_toNat, BitVec.toNat_ofNat]
  omega

theorem OpcodeField.rdc (row col : CellField) : OpcodeField.Statement (.rdc row col) := by
  have := row.isLt
  have := col.isLt
  simp only [OpcodeField.Statement, OpcodeField.number, encode, opField_toNat, BitVec.toNat_ofNat]
  omega

theorem OpcodeField.ncnt (row col : CellField) : OpcodeField.Statement (.ncnt row col) := by
  have := row.isLt
  have := col.isLt
  simp only [OpcodeField.Statement, OpcodeField.number, encode, opField_toNat, BitVec.toNat_ofNat]
  omega

theorem OpcodeField.step : OpcodeField.Statement .step := by
  simp [OpcodeField.Statement, OpcodeField.number, encode, opField]

theorem OpcodeField.run : OpcodeField.Statement .run := by
  simp [OpcodeField.Statement, OpcodeField.number, encode, opField]

theorem OpcodeField.rdreg (reg : RegField) : OpcodeField.Statement (.rdreg reg) := by
  have := reg.isLt
  simp only [OpcodeField.Statement, OpcodeField.number, encode, opField_toNat, BitVec.toNat_ofNat]
  omega

end Sys2Proof.Laws
end

