-- ==== Sys2Proof/Tests/Slice0.lean ====
section
/-! SUPPORT. Tests, each expected result from `95_test_vectors.md` (the vector's name stands in the comment),
and for every obligation with hypotheses a state and operands that meet them. -/

namespace Sys2Proof.Tests

open Sys2Proof.Machine Sys2Proof.Safety

/-! ### Commands out of range are ill-formed -/

theorem test_wellFormed_refuses_setc_row : (Instr.setc 40 0 true).wellFormed = false := by decide
theorem test_wellFormed_refuses_setc_col : (Instr.setc 0 60 true).wellFormed = false := by decide
theorem test_wellFormed_refuses_rdc_row : (Instr.rdc 40 0).wellFormed = false := by decide
theorem test_wellFormed_refuses_rdc_col : (Instr.rdc 0 60).wellFormed = false := by decide
theorem test_wellFormed_refuses_ncnt_row : (Instr.ncnt 63 0).wellFormed = false := by decide
theorem test_wellFormed_refuses_ncnt_col : (Instr.ncnt 0 63).wellFormed = false := by decide
theorem test_wellFormed_refuses_rdreg : (Instr.rdreg 6).wellFormed = false := by decide
theorem test_wellFormed_takes_last_cell : (Instr.setc 39 59 true).wellFormed = true := by decide
theorem test_wellFormed_takes_last_register : (Instr.rdreg 5).wellFormed = true := by decide

/-! ### Words written out from the encodings (EN1 to EN22, ER1 to ER24) -/

theorem test_decode_nop : decode 0x00000000 = .ok .nop := by decide
theorem test_decode_clr : decode 0x10000000 = .ok .clr := by decide
theorem test_decode_setc : decode 0x251B0001 = .ok (.setc 20 27 true) := by decide
theorem test_decode_setc_zero : decode 0x29FB0000 = .ok (.setc 39 59 false) := by decide
theorem test_decode_rdc : decode 0x351C0000 = .ok (.rdc 20 28) := by decide
theorem test_decode_ncnt : decode 0x40830000 = .ok (.ncnt 2 3) := by decide
theorem test_decode_step : decode 0x50000000 = .ok .step := by decide
theorem test_decode_run : decode 0x60000000 = .ok .run := by decide
theorem test_decode_rdreg : decode 0x73000000 = .ok (.rdreg 3) := by decide

theorem test_decode_bits :
    decode 0b0010_010100_011011_000000000000000_1 = .ok (.setc 20 27 true) := by decide

theorem test_decode_refuses_opcodes :
    decode 0x80000000 = .error .illegal ∧ decode 0x90000000 = .error .illegal ∧
      decode 0xFFFFFFFF = .error .illegal := by decide

theorem test_decode_refuses_reserved_bits :
    decode 0x00000001 = .error .illegal ∧ decode 0x18000000 = .error .illegal ∧
      decode 0x50010000 = .error .illegal ∧ decode 0x60000001 = .error .illegal ∧
      decode 0x20000002 = .error .illegal ∧ decode 0x20008000 = .error .illegal ∧
      decode 0x30000001 = .error .illegal ∧ decode 0x40000001 = .error .illegal ∧
      decode 0x71000001 = .error .illegal ∧ decode 0x70800000 = .error .illegal := by decide

theorem test_encode_setc : encode (.setc 20 33 true) = 0x25210001 := by decide
theorem test_encode_ncnt : encode (.ncnt 19 30) = 0x44DE0000 := by decide
theorem test_encode_rdreg : encode (.rdreg 1) = 0x71000000 := by decide

theorem test_decodeTableWord : decodeTableWord 32 0x351B0000 = some (.rdc 20 27) := by decide

/-! ### One step -/

/-- The last response of a step. -/
def lastResponse (o : Host.Outcome State Fault Refusal) : Option Word :=
  match o with
  | .next t => t.responses.getLast?
  | .fault _ => none
  | .refused _ => none

/-- What a step leaves in the cell, STATUS, GEN, SCORE and HCNT. -/
def resultOf (o : Host.Outcome State Fault Refusal) : Option (BitVec 5 × Nat × Nat × Nat) :=
  match o with
  | .next t => some (statusValue t, t.gen.toNat, t.score.toNat, t.hcnt.toNat)
  | .fault _ => none
  | .refused _ => none

/-- The cells of a list alive after a step, with the cell's value. -/
def cellsAfter (o : Host.Outcome State Fault Refusal) (ps : List (Nat × Nat)) : List Bool :=
  match o with
  | .next t => ps.map fun p => t.grid.cell p.1 p.2
  | .fault _ => []
  | .refused _ => []

/-- The grid with the listed cells alive. -/
def gridOf (ps : List (Nat × Nat)) : Grid := Grid.ofFn fun r c => ps.contains (r, c)

/-- The reset state with a seed loaded. -/
def seeded (ps : List (Nat × Nat)) : State := { State.reset with grid := gridOf ps }

/-- The blinker's run before its third iteration: its grid is the one stored first (P4). -/
def atRepeat : State :=
  { runInit (seeded [(20, 29), (20, 30), (20, 31)]) with
    gen := 2, hcnt := 2, score := 9
    hist := [gridOf [(20, 29), (20, 30), (20, 31)], gridOf [(19, 30), (20, 30), (21, 30)]] }

/-- The reset state with one word presented. -/
def withWord (w : Word) : State := present w State.reset

/-- GA7. -/
theorem test_nop : lastResponse (step (withWord 0x00000000)) = some 0x00000000 := by decide
/-- ER4. -/
theorem test_nop_illegal : lastResponse (step (withWord 0x00000001)) = some 0x80000001 := by decide

/-- GA12, by CLR on a grid with an alive cell after a run. -/
theorem test_clr :
    cellsAfter (exec .clr { seeded [(20, 30)] with state := .terminated, gen := 3 }) [(20, 30)]
      = [false] := by decide +kernel
theorem test_clr_keeps_results :
    resultOf (exec .clr { seeded [] with state := .terminated, cause := .repeated, gen := 3, score := 9, hcnt := 2 })
      = some (0, 3, 9, 2) := by decide +kernel

/-- GA2. -/
theorem test_setc :
    cellsAfter (step (withWord 0x251B0001)) [(20, 27), (20, 26), (20, 28), (19, 27)]
      = [true, false, false, false] := by decide +kernel
/-- ER15, ER16. -/
theorem test_setc_outside :
    lastResponse (step (withWord 0x2A000001)) = some 0x80000002 ∧
      lastResponse (step (withWord 0x203C0001)) = some 0x80000002 := by decide

/-- GA5. -/
theorem test_rdc :
    lastResponse (exec (.rdc 39 59) (seeded [(39, 59), (0, 0)])) = some 1 ∧
      lastResponse (exec (.rdc 0 59) (seeded [(39, 59), (0, 0)])) = some 0 := by decide +kernel
/-- ER17, ER18. -/
theorem test_rdc_outside :
    lastResponse (step (withWord 0x303C0000)) = some 0x80000002 ∧
      lastResponse (step (withWord 0x3A000000)) = some 0x80000002 := by decide

/-- NS8: no wrap from row 39 to row 0. -/
theorem test_ncnt_edge :
    lastResponse (exec (.ncnt 0 0) (seeded [(39, 0)])) = some 0 ∧
      lastResponse (exec (.ncnt 38 1) (seeded [(39, 0)])) = some 1 := by decide +kernel
/-- NS10. -/
theorem test_ncnt_blinker :
    lastResponse (exec (.ncnt 19 30) (seeded [(20, 29), (20, 30), (20, 31)])) = some 3 ∧
      lastResponse (exec (.ncnt 20 30) (seeded [(20, 29), (20, 30), (20, 31)])) = some 2 := by
  decide +kernel

/-- NS16 and NS32: all cells at once. -/
theorem test_step_blinker :
    cellsAfter (exec .step (seeded [(20, 29), (20, 30), (20, 31)]))
      [(19, 30), (20, 30), (21, 30), (19, 29), (19, 31), (20, 29), (20, 31)]
        = [true, true, true, false, false, false, false] := by decide +kernel
/-- NS19: a birth in the corner block. -/
theorem test_step_corner :
    cellsAfter (exec .step (seeded [(0, 0), (0, 1), (1, 0)])) [(0, 0), (0, 1), (1, 0), (1, 1), (2, 2)]
      = [true, true, true, true, false] := by decide +kernel

/-- RN3: EXTINCT at generation 1, score 1. -/
theorem test_run_one_cell : resultOf (exec .run (seeded [(0, 0)])) = some (14, 1, 1, 1) := by
  decide +kernel
/-- RN7's third iteration: REPEAT at generation 3, score 9, two entries. -/
theorem test_run_repeat : resultOf (step atRepeat) = some (6, 3, 9, 2) := by decide +kernel

/-- GA8. -/
theorem test_rdreg_config : lastResponse (step (withWord 0x70000000)) = some 0x07E8283C := by decide
/-- ER21, and P3's POP of the block. -/
theorem test_rdreg_pop :
    lastResponse (step (withWord 0x76000000)) = some 0x80000003 ∧
      lastResponse (exec (.rdreg 5) (seeded [(0, 0), (0, 1), (1, 0), (1, 1)])) = some 4 := by
  decide +kernel

theorem test_withFetchWord :
    lastResponse (step (State.reset.withFetchWord 32 0x71000000)) = some 0 := by decide

/-! ### Loader and script -/

/-- L10: the first bit at (19,0), the last at (20,31). -/
theorem test_loader :
    let g := seedImage [0x80, 0, 0, 0, 0, 0, 0, 0x01]
    g.cell 19 0 = true ∧ g.cell 20 31 = true ∧ g.cell 20 28 = false := by decide +kernel

/-- L9: 308 bytes start one row above the grid; the last of the 42 block rows has four bits. -/
theorem test_loader_cut :
    vstart (8 * 308) = -1 ∧ rowsNeeded (8 * 308) = 42 ∧ rowCount (8 * 308) 41 = 4 := by decide

/-- EN23 and EN8. -/
theorem test_text :
    assembleText "SET 1,2  # one cell\nRDC 20, 27" = some [0x20420001, 0x351B0000] := by
  decide +kernel

/-! ### Witnesses of the hypotheses of the obligations -/

/-- A word presented to the reset state is accepted. -/
theorem test_witness_Accepts (w : Word) : Accepts (withWord w) w [] :=
  ⟨by simp [withWord, State.reset], rfl⟩

theorem test_witness_DecodeEncodeInverse : decode 0x29FB0001 = .ok (.setc 39 59 true) := by decide

theorem test_witness_OpcodeMapDecides :
    (⟨"RDREG", 0x70000000, 0xF0FFFFFF⟩ : OpcodeRow) ∈ opcodeMap ∧
      (0x7F000000 : Word) &&& 0xF0FFFFFF = 0x70000000 := by decide

theorem test_witness_LegalWordCount_row :
    (("SETC", 4800) : String × Nat) ∈ [("NOP", 1), ("CLR", 1), ("STEP", 1), ("RUN", 1), ("SETC", 4800),
      ("RDC", 2400), ("NCNT", 2400), ("RDREG", 6)] := by decide

theorem test_witness_LegalWordCount_illegal :
    ¬ ∃ i : Instr, decode 0x80000000 = .ok i ∧ i.wellFormed = true := by
  rintro ⟨i, h, -⟩
  rw [show decode 0x80000000 = .error .illegal by decide] at h
  cases h

theorem test_witness_LegalWordCount_outside :
    ¬ ∃ i : Instr, decode 0x2A000001 = .ok i ∧ i.wellFormed = true := by
  rintro ⟨i, h, w⟩
  rw [show decode 0x2A000001 = .ok (.setc 40 0 true) by decide] at h
  cases h
  exact absurd w (by decide)

theorem test_witness_AcceptedWordOutcome_reserved :
    Accepts (withWord 0x80000000) 0x80000000 [] ∧ 8 ≤ (0x80000000 : Word).toNat / 2 ^ 28 :=
  ⟨test_witness_Accepts _, by decide⟩

theorem test_witness_AcceptedWordOutcome_zeroBits :
    ((0x08000000 : Word).toNat / 2 ^ 28 ∈ [0, 1, 5, 6] ∧ (0x08000000 : Word).toNat % 2 ^ 28 ≠ 0) ∧
      ((0x20008000 : Word).toNat / 2 ^ 28 = 2 ∧ (0x20008000 : Word).toNat / 2 % 2 ^ 15 ≠ 0) ∧
      ((0x40008000 : Word).toNat / 2 ^ 28 ∈ [3, 4] ∧ (0x40008000 : Word).toNat % 2 ^ 16 ≠ 0) ∧
      ((0x70800000 : Word).toNat / 2 ^ 28 = 7 ∧ (0x70800000 : Word).toNat % 2 ^ 24 ≠ 0) := by decide

/-- The first row, column and register out of range, and the last in range. -/
theorem test_witness_AcceptedWordOutcome_range :
    40 ≤ (0x3A000000 : Word).toNat / 2 ^ 22 % 2 ^ 6 ∧ 60 ≤ (0x303C0000 : Word).toNat / 2 ^ 16 % 2 ^ 6 ∧
      6 ≤ (0x76000000 : Word).toNat / 2 ^ 24 % 2 ^ 4 ∧
      (0x29FB0001 : Word).toNat / 2 ^ 22 % 2 ^ 6 = 39 ∧ (0x29FB0001 : Word).toNat / 2 ^ 16 % 2 ^ 6 = 59 ∧
      (0x75000000 : Word).toNat / 2 ^ 24 % 2 ^ 4 = 5 := by decide

theorem test_witness_StepRunsDecodedCommand :
    Accepts (withWord 0x60000000) 0x60000000 [] ∧ decode 0x60000000 = .ok .run :=
  ⟨test_witness_Accepts _, by decide⟩

theorem test_witness_OneResponsePerCommand : Accepts (withWord 0x75000000) 0x75000000 [] :=
  test_witness_Accepts _

theorem test_witness_ErrorsChangeNothing :
    Accepts (withWord 0x76000000) 0x76000000 [] ∧
      step (withWord 0x76000000) = .next (answered (withWord 0x76000000) [] 0x80000003) ∧
      (answered (withWord 0x76000000) [] 0x80000003).responses
        = (withWord 0x76000000).responses ++ [0x80000003] ∧
      (0x80000003 : Word).getLsbD 31 = true :=
  ⟨test_witness_Accepts _, rfl, rfl, by decide⟩

theorem test_witness_ReadsHaveNoSideEffect_read :
    Instr.mnemonic .nop ∈ ["NOP", "RDC", "NCNT", "RDREG"] ∧
      Instr.mnemonic (.rdc 40 0) ∈ ["NOP", "RDC", "NCNT", "RDREG"] := by decide

theorem test_witness_ReadsHaveNoSideEffect_write :
    ∃ t u, Instr.mnemonic .clr ∈ ["CLR", "SETC"] ∧ exec .clr State.reset = .next t ∧
      exec .clr t = .next u :=
  ⟨_, _, by decide, exec_clr _, exec_clr _⟩

theorem test_witness_OnlyRunWritesResults :
    ∃ t, Instr.step ≠ .run ∧ exec .step State.reset = .next t :=
  ⟨_, by decide, exec_step _⟩

theorem test_witness_NopCommand :
    Accepts (withWord 0x00000001) 0x00000001 [] ∧ (0x00000001 : Word).toNat / 2 ^ 28 = 0 :=
  ⟨test_witness_Accepts _, by decide⟩

theorem test_witness_ClrCommand :
    Accepts (withWord 0x10000000) 0x10000000 [] ∧ (0x10000000 : Word).toNat / 2 ^ 28 = 1 :=
  ⟨test_witness_Accepts _, by decide⟩

theorem test_witness_SetcCommand_range :
    ((39 : CellField).toNat < 40 ∧ (59 : CellField).toNat < 60) ∧
      (40 ≤ (40 : CellField).toNat ∨ 60 ≤ (0 : CellField).toNat) ∧
      (40 ≤ (0 : CellField).toNat ∨ 60 ≤ (60 : CellField).toNat) ∧
      ¬ ((39 : CellField) = 39 ∧ (59 : CellField) = 58) := by decide

theorem test_witness_SetcCommand_word :
    Accepts (withWord 0x2A000001) 0x2A000001 [] ∧ (0x2A000001 : Word).toNat / 2 ^ 28 = 2 :=
  ⟨test_witness_Accepts _, by decide⟩

theorem test_witness_RdcCommand :
    Accepts (withWord 0x30000001) 0x30000001 [] ∧ (0x30000001 : Word).toNat / 2 ^ 28 = 3 :=
  ⟨test_witness_Accepts _, by decide⟩

theorem test_witness_NcntCommand :
    Accepts (withWord 0x44DE0000) 0x44DE0000 [] ∧ (0x44DE0000 : Word).toNat / 2 ^ 28 = 4 :=
  ⟨test_witness_Accepts _, by decide⟩

theorem test_witness_StepCommand :
    Accepts (withWord 0x50010000) 0x50010000 [] ∧ (0x50010000 : Word).toNat / 2 ^ 28 = 5 :=
  ⟨test_witness_Accepts _, by decide⟩

theorem test_witness_RunWordRuns :
    Accepts (withWord 0x60000000) 0x60000000 [] ∧ (0x60000000 : Word).toNat / 2 ^ 28 = 6 :=
  ⟨test_witness_Accepts _, by decide⟩

theorem test_witness_RdregCommand :
    Accepts (withWord 0x76000000) 0x76000000 [] ∧ (0x76000000 : Word).toNat / 2 ^ 28 = 7 ∧
      6 ≤ (6 : RegField).toNat :=
  ⟨test_witness_Accepts _, by decide, by decide⟩

theorem test_witness_GridWritesMarkSeeded :
    (Instr.setc 39 59 false).mnemonic ∈ ["CLR", "SETC", "STEP"] ∧
      (Instr.setc 39 59 false).wellFormed = true := by decide

/-- Two grids that agree around the cell (0, 0) and differ elsewhere. -/
theorem test_witness_NextGridIsSimultaneous :
    (∀ y x, y < 40 → x < 60 → y ≤ 0 + 1 → 0 ≤ y + 1 → x ≤ 0 + 1 → 0 ≤ x + 1 →
      Grid.dead.cell y x = (Grid.dead.setCell 39 59 true).cell y x) ∧
      (Grid.dead.setCell 39 59 true).cell 39 59 = true := by
  refine ⟨fun y x _ _ hy _ _ _ => ?_, by decide +kernel⟩
  rw [cell_setCell, if_neg (by omega)]

/-- A run about to reach the cap. -/
def atCap : State :=
  { runInit State.reset with gen := 1000, hcnt := 1000, hist := List.replicate 1000 Grid.dead }

theorem test_witness_RunIteration_cap :
    atCap.state = .stepping ∧ RunBounds atCap ∧ 1000 ≤ atCap.gen.toNat := by
  refine ⟨rfl, ⟨by decide, rfl, ?_, Nat.zero_le _⟩, by decide⟩
  show (1000 : BitVec 10).toNat ≤ (List.replicate 1000 Grid.dead).length
  rw [List.length_replicate]
  decide

theorem test_witness_RunIteration_repeat :
    atRepeat.state = .stepping ∧ RunBounds atRepeat ∧ ¬ 1000 ≤ atRepeat.gen.toNat ∧
      atRepeat.grid ∈ atRepeat.seen :=
  ⟨rfl, ⟨by decide, rfl, by decide, by decide⟩, by decide, by simp [atRepeat, State.seen, seeded]⟩

theorem test_witness_RunIteration_stable :
    Iterating (runInit State.reset) ∧ RunBounds (runInit State.reset) ∧
      ¬ 1000 ≤ (runInit State.reset).gen.toNat ∧ State.reset.grid ∉ (runInit State.reset).seen ∧
      State.reset.grid.next = State.reset.grid :=
  ⟨⟨rfl, by simp [State.reset]⟩, ⟨by decide, rfl, by decide, by decide +kernel⟩, by decide, by simp,
    by decide +kernel⟩

theorem test_witness_RunIteration_extinct :
    RunBounds (runInit (seeded [(0, 0)])) ∧ (seeded [(0, 0)]).grid.next ≠ (seeded [(0, 0)]).grid ∧
      (seeded [(0, 0)]).grid.next.pop = 0 :=
  ⟨⟨by decide, rfl, by decide, by decide +kernel⟩, by decide +kernel, by decide +kernel⟩

theorem test_witness_RunIteration_advance :
    let s := seeded [(20, 29), (20, 30), (20, 31)]
    RunBounds (runInit s) ∧ s.grid.next ≠ s.grid ∧ s.grid.next.pop ≠ 0 :=
  ⟨⟨by decide, rfl, by decide, by decide +kernel⟩, by decide +kernel, by decide +kernel⟩

theorem test_witness_SteppingStepIsIteration : Iterating atRepeat ∧ RunBounds atRepeat :=
  ⟨⟨rfl, by simp [atRepeat, seeded, State.reset]⟩, test_witness_RunIteration_repeat.2.1⟩

theorem test_witness_RunStepByStepIsRun : ∀ rest, State.reset.commands ≠ .reset :: rest := by
  simp [State.reset]

/-- RunInit meets the invariant of a run, for the blinker. -/
theorem test_witness_RunInvariantKept :
    let s := runInit (seeded [(20, 29), (20, 30), (20, 31)])
    RunInv s.grid s ∧ Iterating s ∧ s.hist.length ≤ 1000 ∧ midRun s = true := by
  refine ⟨⟨rfl, rfl, rfl, by decide, rfl, rfl, by decide +kernel, by decide, ?_, by decide, by decide⟩,
    ⟨rfl, by simp [seeded, State.reset]⟩, by decide, by decide +kernel⟩
  intro i hi
  exact absurd hi (Nat.not_lt_zero i)

/-- An iteration after which the run goes on. -/
theorem test_witness_RunInvariantKept_goesOn :
    (runIter (runInit (seeded [(20, 29), (20, 30), (20, 31)]))).state = .stepping := by
  obtain ⟨-, d, e⟩ := test_witness_RunIteration_advance
  generalize seeded [(20, 29), (20, 30), (20, 31)] = s at d e
  rcases runIter_cases (runInit s) with ⟨h, -⟩ | ⟨-, h, -⟩ | ⟨-, -, h⟩
  · exact absurd h (by simp)
  · exact absurd h (by simp)
  · rcases settle_cases s.grid.next (storeGrid (countIteration (runInit s))) with
      ⟨f, -⟩ | ⟨-, f, -⟩ | ⟨-, -, f⟩
    · exact absurd f d
    · exact absurd f e
    · rw [h, runInit_grid, f]
      rfl

/-- An iteration that ends its run. -/
theorem test_witness_RunInvariantKept_ends :
    RunInv Grid.dead (runInit State.reset) ∧ (runIter (runInit State.reset)).state = .terminated := by
  refine ⟨⟨rfl, rfl, rfl, by decide, rfl, rfl, by decide +kernel, by decide, ?_, by decide, by decide⟩, ?_⟩
  · intro i hi
    exact absurd hi (Nat.not_lt_zero i)
  · have d := test_witness_RunIteration_stable.2.2.2.2
    generalize State.reset = s at d
    rcases runIter_cases (runInit s) with ⟨-, h⟩ | ⟨-, -, h⟩ | ⟨-, -, h⟩
    · rw [h]; rfl
    · rw [h]; rfl
    · rcases settle_cases s.grid.next (storeGrid (countIteration (runInit s))) with
        ⟨-, f⟩ | ⟨-, -, f⟩ | ⟨f, -⟩
      · rw [h, runInit_grid, f]; rfl
      · rw [h, runInit_grid, f]; rfl
      · exact absurd d f

theorem test_witness_ReadyInv : ReadyInv State.reset := by
  refine ⟨by decide, by decide, by decide, by decide, by decide, ?_, ?_, ?_, ?_, ?_, by decide, by decide⟩
  all_goals simp [State.reset, State.seen]

theorem test_witness_StepKeepsInvariant : Inv State.reset ∧ step State.reset = .next State.reset :=
  ⟨.inl test_witness_ReadyInv, rfl⟩

theorem test_witness_InvariantStatesNeverStop : Inv State.reset := .inl test_witness_ReadyInv

/-- A state no run reaches: an iteration counted and nothing stored. -/
theorem test_witness_InvariantStatesNeverStop_fault :
    Iterating { runInit State.reset with gen := 1 } ∧ ¬ RunBounds { runInit State.reset with gen := 1 } :=
  ⟨⟨rfl, by simp [State.reset]⟩, fun h => absurd h.2.1 (by decide)⟩

theorem test_witness_RunDependsOnGridAlone :
    State.reset.grid = ({ State.reset with state := .terminated, gen := 7 } : State).grid := rfl

theorem test_witness_RunResultsByCause : ∃ t, exec .run (seeded [(0, 0)]) = .next t := exec_next _ _

theorem test_witness_DeadSeedIsStable : State.reset.grid = Grid.dead := rfl

/-- RN13: a first run that ends with EXTINCT, and a second. -/
theorem test_witness_SecondRunIsFresh :
    ∃ t u, exec .run (seeded [(0, 0)]) = .next t ∧ exec .run t = .next u ∧ t.cause = .extinct := by
  obtain ⟨t, ht⟩ := exec_next .run (seeded [(0, 0)])
  obtain ⟨u, hu⟩ := exec_next .run t
  have h := test_run_one_cell
  rw [ht] at h
  have hs : statusValue t = 14 := by simpa [resultOf] using congrArg (Option.map Prod.fst) h
  refine ⟨t, u, ht, hu, ?_⟩
  unfold statusValue at hs
  cases hc : t.cause <;> cases hr : t.state <;> rw [hc, hr] at hs <;>
    first | rfl | exact absurd hs (by decide)

theorem test_witness_StateTransitions_reset :
    ({ State.reset with commands := [.reset] } : State).commands = .reset :: [] := rfl

theorem test_witness_StateTransitions_setc :
    Accepts (withWord 0x29FB0001) 0x29FB0001 [] ∧ Accepts (withWord 0x2A000001) 0x2A000001 [] ∧
      decode 0x29FB0001 = .ok (.setc 39 59 true) ∧ decode 0x2A000001 = .ok (.setc 40 0 true) :=
  ⟨test_witness_Accepts _, test_witness_Accepts _, by decide, by decide⟩

theorem test_witness_StateTransitions_iterating :
    ∃ t, Iterating (runInit State.reset) ∧ step (runInit State.reset) = .next t := by
  rcases sequencerStep_cases (runInit State.reset) with ⟨h, -⟩ | ⟨-, -, h⟩ | ⟨-, -, h⟩
  · exact absurd h (by decide +kernel)
  · exact ⟨_, ⟨rfl, by simp [State.reset]⟩, h⟩
  · exact ⟨_, ⟨rfl, by simp [State.reset]⟩, h⟩

theorem test_witness_StateTransitions_idle :
    State.reset.commands = [] ∧ State.reset.state ≠ .stepping := ⟨rfl, by decide⟩

theorem test_witness_NoCommandDuringRun :
    ∃ t, (runInit State.reset).state = .stepping ∧
      step { runInit State.reset with commands := [.command 0x10000000] } = .next t := by
  rcases sequencerStep_cases { runInit State.reset with commands := [.command 0x10000000] } with
    ⟨h, -⟩ | ⟨-, -, h⟩ | ⟨-, -, h⟩
  · exact absurd h (by decide +kernel)
  · exact ⟨_, rfl, h⟩
  · exact ⟨_, rfl, h⟩

theorem test_witness_WordsAreFolded :
    (withWord 0x75000000).state ≠ .stepping ∧
      (withWord 0x75000000).commands = [(0x75000000 : Word)].map HostEvent.command ++ [] :=
  ⟨by decide, rfl⟩

theorem test_witness_ResetFromAnyState :
    ({ runInit State.reset with commands := [.reset] } : State).commands = .reset :: [] := rfl

theorem test_witness_ResetEdge : (⟨true, true, 0x60000000⟩ : Pins).rst = true := rfl

/-- A port with a run in progress. -/
def busyPort : PortState := ⟨runInit State.reset, .working 0x60000000 0, none, 1⟩

theorem test_witness_UnreadyPortIgnoresWords :
    (⟨false, true, 0x10000000⟩ : Pins).rst = false ∧ (⟨false, false, 0⟩ : Pins).rst = false ∧
      cmdReady false busyPort = false := by decide

theorem test_witness_AcceptedWordIsAnswered :
    cmdReady false ⟨State.reset, .ready, none, 0⟩ = true ∧
      (∀ n, (List.replicate n (⟨false, true, 0⟩ : Pins)).length = n ∧
        ∀ i ∈ List.replicate n (⟨false, true, 0⟩ : Pins), i.rst = false) ∧
      decode 0x60000000 = .ok .run := by
  refine ⟨by decide, fun n => ⟨List.length_replicate, fun i hi => ?_⟩, by decide⟩
  rw [List.eq_of_mem_replicate hi]

theorem test_witness_BlocksAreIndependent :
    ∃ after, systemStep 0 [withWord 0x00000000, State.reset] = .next after ∧
      (1 : Nat) ≠ 0 ∧ [withWord 0x00000000, State.reset][0]? = some (withWord 0x00000000) :=
  ⟨_, rfl, by decide, rfl⟩

theorem test_witness_EncodeBitsOrder : 0 < [(0x41 : Byte)].length ∧ 7 < 8 := by decide

theorem test_witness_DroppedBlockRows_bits :
    (false :: List.replicate 2460 false).length = (true :: List.replicate 2460 false).length ∧
      ∀ k i : Nat, k < rowsNeeded 2461 → i < 60 → 0 ≤ vstart 2461 + k → vstart 2461 + k < 40 →
        (false :: List.replicate 2460 false)[60 * k + i]?
          = (true :: List.replicate 2460 false)[60 * k + i]? := by
  refine ⟨by rw [List.length_cons, List.length_cons], fun k i _ _ hk _ => ?_⟩
  have v : vstart 2461 = -1 := by decide
  obtain ⟨n, hn⟩ : ∃ n, 60 * k + i = n + 1 := ⟨60 * k + i - 1, by omega⟩
  rw [hn, List.getElem?_cons_succ, List.getElem?_cons_succ]

/-- The first and the last kept rows of 42, and the dropped ones. -/
theorem test_witness_DroppedBlockRows_rows :
    0 < rowsNeeded 2461 ∧ 41 < rowsNeeded 2461 ∧ 1 < rowsNeeded 2461 ∧ 40 < rowsNeeded 2461 ∧
      40 < rowsNeeded 2401 ∧ 39 < rowsNeeded 2400 := by decide

theorem test_witness_WideCharactersRefused :
    (∃ p ∈ [65, 256], 256 ≤ p) ∧ ∀ p ∈ [65, 255], p < 256 := by decide

/-! The ranges of rows, columns and block rows, at their ends. -/

theorem test_witness_NeighbourCountIsMoore : (0 < 40 ∧ 0 < 60) ∧ (39 < 40 ∧ 59 < 60) := by decide

theorem test_witness_LargestNeighbourCount : (39 < 40 ∧ 59 < 60) ∧ (1 < 40 ∧ 1 < 60) := by decide

theorem test_witness_EdgePositions : (1 ≤ 1 ∧ 1 ≤ 58) ∧ (1 ≤ 58 ∧ 58 ≤ 58) ∧ (1 ≤ 38 ∧ 38 ≤ 38) := by
  decide

theorem test_witness_StepFacts : (39 < 40 ∧ 59 < 60) ∧ (38 < 39 ∧ 58 < 59) := by decide

theorem test_witness_FlatIsOneToOne : 39 < 40 ∧ 59 < 60 ∧ 60 * 39 + 59 = 2399 := by decide

theorem test_witness_RowRegisters : 39 < 40 ∧ 59 < 60 := by decide

theorem test_witness_RdcCommand_range :
    ((39 : CellField).toNat < 40 ∧ (59 : CellField).toNat < 60) ∧ 40 ≤ (40 : CellField).toNat ∧
      60 ≤ (60 : CellField).toNat := by decide

theorem test_witness_NcntCommand_range :
    ((0 : CellField).toNat < 40 ∧ (59 : CellField).toNat < 60) ∧ 40 ≤ (63 : CellField).toNat ∧
      60 ≤ (63 : CellField).toNat := by decide

theorem test_witness_RunEndsWithinBound : 1001 ≤ 1001 := by decide

theorem test_witness_StatusValues : ReadyInv State.reset := test_witness_ReadyInv

/-- A state after a run: its cause, GEN, and the valid entries of HIST. -/
def endedWith (c : Cause) (gen : Nat) (seen : List Grid) : State :=
  { State.reset with
    state := .terminated, cause := c, gen := BitVec.ofNat 10 gen
    hcnt := BitVec.ofNat 10 seen.length, hist := seen }

/-- One TERMINATED state for each of REPEAT, STABLE and EXTINCT (R28). -/
theorem test_witness_StatusValues_terminated :
    ReadyInv (endedWith .repeated 3 [gridOf [(20, 29), (20, 30), (20, 31)], gridOf [(19, 30), (20, 30), (21, 30)]]) ∧
      ReadyInv (endedWith .stable 1 [Grid.dead]) ∧ ReadyInv (endedWith .extinct 1 [gridOf [(0, 0)]]) := by
  refine ⟨?_, ?_, ?_⟩ <;> refine ⟨?_, ?_, ?_, ?_, ?_, ?_, ?_, ?_, ?_, ?_, ?_⟩ <;> decide +kernel

/-- A grid for each number: the number is every row. -/
def numbered (n : Nat) : Grid := ⟨Vector.replicate 40 (BitVec.ofNat 60 n)⟩

/-- A TERMINATED state with CAUSE = MAX: a thousand different entries. -/
theorem test_witness_StatusValues_max :
    ReadyInv (endedWith .max 1000 ((List.range 1000).map numbered)) := by
  have l : ((List.range 1000).map numbered).length = 1000 := by rw [List.length_map, List.length_range]
  have n : ((List.range 1000).map numbered).Nodup := by
    refine (List.nodup_map_iff_inj_on List.nodup_range).2 fun a ha b hb e => ?_
    have r : (numbered a).row 0 = (numbered b).row 0 := congrArg (Grid.row · 0) e
    have t := congrArg BitVec.toNat r
    rw [List.mem_range] at ha hb
    simp only [numbered, Grid.row, Vector.getElem?_replicate, Nat.zero_lt_succ, if_true,
      Option.getD_some, BitVec.toNat_ofNat] at t
    omega
  generalize (List.range 1000).map numbered = h at l n
  have hs : (endedWith .max 1000 h).seen = h := by
    simp only [endedWith, State.seen, l]
    rw [show (BitVec.ofNat 10 1000).toNat = h.length from l.symm, List.take_length]
  have c : (endedWith .max 1000 h).hcnt = 1000 := by simp only [endedWith, l]; rfl
  refine ⟨?_, ?_, ?_, ?_, ?_, ?_, ?_, ?_, ?_, ?_, ?_, ?_⟩
  all_goals first
    | (rw [hs]; exact n)
    | (rw [c]; show _ ≤ h.length; rw [l]; decide)
    | (show h.length ≤ 1000; exact l.le)
    | (rw [c]; simp [endedWith, State.reset])
    | simp [endedWith, State.reset]

theorem test_witness_SeedPlacement : 39 < 40 ∧ 59 < 60 := by decide

end Sys2Proof.Tests
end

section
/-! PROOF. What a pass of `RunIter` keeps, and the run taken pass by pass (`00_scope.md` R12,
`42_run.md` R176, R191, R201 to R203). -/

namespace Sys2Proof.Machine

open Sys2Proof.Safety

/-! ### The step, by what the block meets -/

/-- A block that accepts a word does the command function of R96 and nothing else. -/
theorem step_of_accepts {s : State} {w : Word} {rest : List HostEvent} (h : Accepts s w rest) :
    step s = acceptWord w { s with commands := rest } := by
  obtain ⟨hready, hcmd⟩ := h
  simp [step, fetch, hcmd, hready]

theorem acceptWord_of_decode {w : Word} {i : Instr} (h : decode w = .ok i) (s : State) :
    acceptWord w s = exec i s := by
  simp only [acceptWord, h]

theorem step_of_iterating {s : State} (h : Iterating s) : step s = sequencerStep s := by
  obtain ⟨hstep, hrst⟩ := h
  rcases step_cases s with ⟨-, hn, -⟩ | ⟨rest, hc, -⟩ | ⟨-, -, e⟩ | ⟨-, -, hn, -⟩
  · exact absurd hstep hn
  · exact absurd hc (hrst rest)
  · exact e
  · exact absurd hstep hn

/-- The check of the sequencer is the bounds of R201 to R203. -/
theorem midRun_iff (s : State) : midRun s = true ↔ RunBounds s := by
  simp [midRun, RunBounds, and_assoc]

/-- A pass within the bounds: RUN's response if it ends the run, nothing beside it if it does not. -/
theorem sequencerStep_of_runBounds {s : State} (h : RunBounds s) :
    sequencerStep s =
      .next (if (runIter s).state = .terminated then respond 0 (runIter s) else runIter s) := by
  rcases sequencerStep_cases s with ⟨hm, -⟩ | ⟨-, ht, e⟩ | ⟨-, ht, e⟩
  · simp [(midRun_iff s).2 h] at hm
  · rw [e, if_pos ht]
  · rw [e, if_neg ht]

/-! ### What a pass that does not end the run does -/

/-- A pass that does not end the run counts, stores the grid, scores the next one and advances to it
(steps 3a, 3c, 3d and 3g of R176). -/
theorem runIter_of_continues {s : State} (h : (runIter s).state ≠ .terminated) :
    s.gen.toNat < 1000 ∧ runIter s =
      writeGrid s.grid.next (scoreNext s.grid.next (storeGrid (countIteration s))) := by
  rcases runIter_cases s with ⟨-, e⟩ | ⟨-, -, e⟩ | ⟨hgen, -, e⟩
  · simp [e] at h
  · simp [e] at h
  · rcases settle_cases s.grid.next (storeGrid (countIteration s)) with
      ⟨-, f⟩ | ⟨-, -, f⟩ | ⟨-, -, f⟩
    · simp [e, f] at h
    · simp [e, f] at h
    · exact ⟨hgen, e.trans f⟩

theorem runIter_gen_of_continues {s : State} (h : (runIter s).state ≠ .terminated) :
    (runIter s).gen.toNat = s.gen.toNat + 1 := by
  obtain ⟨hgen, e⟩ := runIter_of_continues h
  rw [e]
  exact toNat_succ (by omega)

/-- A sum that fits the score register is kept exactly (R30). -/
theorem toNat_add_ofNat_score {x : BitVec 22} {n : Nat} (h : x.toNat + n < 2 ^ 22) :
    (x + BitVec.ofNat 22 n).toNat = x.toNat + n := by
  simp only [BitVec.toNat_add, BitVec.toNat_ofNat]
  omega

/-- A score of at most a thousand populations takes one more without a wrap (R201). -/
theorem scoreNext_score_toNat {s : State} (g : Grid) (h : s.score.toNat ≤ 2400 * 1000) :
    (scoreNext g s).score.toNat = s.score.toNat + g.pop := by
  have hpop := pop_le g
  rw [scoreNext_score, toNat_add_ofNat_score (by omega)]

/-- RunInit meets the bounds of R201 to R203, whatever the block held. -/
theorem runInit_runBounds (s : State) : RunBounds (runInit s) := by
  have hpop := pop_le s.grid
  refine ⟨by simp, by simp, by simp, ?_⟩
  simp only [runInit_score, runInit_gen, BitVec.toNat_ofNat]
  omega

/-- A pass that does not end the run keeps the bounds of R201 to R203. -/
theorem runIter_keeps_runBounds {s : State} (h : RunBounds s)
    (hc : (runIter s).state ≠ .terminated) : RunBounds (runIter s) := by
  obtain ⟨-, hfill, hhist, hscore⟩ := h
  have hcount := runIter_gen_of_continues hc
  obtain ⟨hgen, e⟩ := runIter_of_continues hc
  have hpop := pop_le s.grid.next
  have hk : s.hcnt.toNat = s.gen.toNat := congrArg BitVec.toNat hfill
  refine ⟨by omega, ?_, ?_, ?_⟩
  · simp [e, hfill]
  · have hadd := toNat_succ (x := s.hcnt) (by omega)
    have hlen := length_storeAt s.grid hhist
    simp only [e, writeGrid_hcnt, scoreNext_hcnt, storeGrid_hcnt, countIteration_hcnt,
      writeGrid_hist, scoreNext_hist, storeGrid_hist, countIteration_hist, countIteration_grid]
    omega
  · have hsum := scoreNext_score_toNat (s := storeGrid (countIteration s)) s.grid.next
      (by rw [storeGrid_score, countIteration_score]; omega)
    rw [storeGrid_score, countIteration_score] at hsum
    rw [hcount, e, writeGrid_score, hsum]
    omega

/-- A pass that does not end the run leaves it in progress, with no reset come in. -/
theorem runIter_keeps_iterating {s : State} (h : Iterating s)
    (hc : (runIter s).state ≠ .terminated) : Iterating (runIter s) := by
  obtain ⟨hstep, hrst⟩ := h
  refine ⟨?_, by simpa using hrst⟩
  rw [(runIter_of_continues hc).2]
  simpa using hstep

/-! ### The run, pass by pass -/

theorem core_run_succ {s t : State} (h : step s = .next t) (n : Nat) :
    Host.Core.run Sys2Proof.core (n + 1) s = Host.Core.run Sys2Proof.core n t := by
  have hcore : Sys2Proof.core.step s = .next t := h
  simp only [Host.Core.run, hcore]

/-- From a run in progress within its bounds, the steps of the machine end in the state in which the
loop ends, with RUN's response. `fuel` counts the passes that MAX leaves, so the loop cannot stop for
want of it (R191). -/
theorem core_run_eq_runLoop (fuel : Nat) {s : State} (hi : Iterating s) (hb : RunBounds s)
    (hf : s.gen.toNat + fuel = 1001) :
    ∃ n, 1 ≤ n ∧ n ≤ fuel ∧
      Host.Core.run Sys2Proof.core n s = .next (respond 0 (runLoop fuel s)) := by
  induction fuel generalizing s with
  | zero =>
    obtain ⟨hgen, -⟩ := hb
    omega
  | succ fuel ih =>
    have hpass := (step_of_iterating hi).trans (sequencerStep_of_runBounds hb)
    rw [runLoop_of_stepping hi.1]
    by_cases ht : (runIter s).state = .terminated
    · rw [if_pos ht] at hpass
      refine ⟨1, le_rfl, by omega, ?_⟩
      rw [core_run_succ hpass, runLoop_of_ended (by simp [ht])]
      rfl
    · rw [if_neg ht] at hpass
      have hcount := runIter_gen_of_continues ht
      obtain ⟨n, -, hn, hrun⟩ := ih (runIter_keeps_iterating hi ht) (runIter_keeps_runBounds hb ht)
        (by omega)
      exact ⟨n + 1, by omega, by omega, (core_run_succ hpass n).trans hrun⟩

/-! ### The obligations of `00_scope.md` -/

/-- Settles O33: RunInit starts a run within its bounds, with 1001 passes left before MAX. -/
theorem runStepByStepIsRun : Obligations.RunStepByStepIsRun := by
  unfold Obligations.RunStepByStepIsRun
  intro s hrst
  rw [exec_run]
  exact core_run_eq_runLoop 1001 ⟨runInit_state s, hrst⟩ (runInit_runBounds s) rfl

/-- Settles O5: a ready block takes the word, and its decoding picks the command. -/
theorem stepRunsDecodedCommand : Obligations.StepRunsDecodedCommand := by
  unfold Obligations.StepRunsDecodedCommand
  intro s w rest i hacc hdec
  exact (step_of_accepts hacc).trans (acceptWord_of_decode hdec _)

/-- Settles O32: the sequencer's pass, with the response OK(0) written out as its word. -/
theorem steppingStepIsIteration : Obligations.SteppingStepIsIteration := by
  unfold Obligations.SteppingStepIsIteration
  intro s hiter hbounds
  have hresp : respond 0 (runIter s) =
      { runIter s with responses := s.responses ++ [0x00000000] } := by
    rw [← runIter_responses s]; rfl
  rw [step_of_iterating hiter, sequencerStep_of_runBounds hbounds, hresp]

end Sys2Proof.Machine
end

section
/-! PROOF. The architectural state: what a command other than RUN can write, how a run ends, and the
invariant of R44 and R203 (`10_state.md` R26 to R44). -/

namespace Sys2Proof.Machine

open Sys2Proof.Safety

/-! ### The step, by what the block meets -/

theorem step_of_reset {s : State} {rest : List HostEvent} (h : s.commands = .reset :: rest) :
    step s = .next (resetBlock { s with commands := rest }) := by
  simp only [step, fetch, h]

theorem step_of_idle {s : State} (h : s.commands = []) (hready : s.state ≠ .stepping) :
    step s = .next s := by
  simp only [step, fetch, h, if_neg hready]

/-! ### What a command does to the state -/

theorem acceptWord_of_error {w : Word} {e : CommandError} (h : decode w = .error e) (s : State) :
    acceptWord w s = .next (raise e s) := by
  simp only [acceptWord, h]

theorem exec_rdreg {reg : RegField} {n : RegName} (h : regOperand reg = some n) (s : State) :
    exec (.rdreg reg) s = .next (respond (regValue n s) s) := by
  simp only [exec, execRdreg, h]

theorem exec_rdreg_outside {reg : RegField} (h : regOperand reg = none) (s : State) :
    exec (.rdreg reg) s = .next (raise .badReg s) := by
  simp only [exec, execRdreg, h]

/-- A command that reads, or does nothing, gives its response and changes nothing else (R121, R124,
R125, R155). -/
theorem exec_reading {i : Instr} (h : i.mnemonic ∈ ["NOP", "RDC", "NCNT", "RDREG"]) (s : State) :
    ∃ r, exec i s = .next { s with responses := s.responses ++ [r] } := by
  cases i with
  | nop => exact ⟨_, exec_nop s⟩
  | rdc row col =>
    by_cases k : row.toNat < 40 ∧ col.toNat < 60
    · exact ⟨_, exec_rdc k s⟩
    · exact ⟨_, (exec_cell_outside k true s).2.1⟩
  | ncnt row col =>
    by_cases k : row.toNat < 40 ∧ col.toNat < 60
    · exact ⟨_, exec_ncnt k s⟩
    · exact ⟨_, (exec_cell_outside k true s).2.2⟩
  | rdreg reg =>
    cases k : regOperand reg with
    | none => exact ⟨_, exec_rdreg_outside k s⟩
    | some n => exact ⟨_, exec_rdreg k s⟩
  | clr => simp [Instr.mnemonic] at h
  | setc row col v => simp [Instr.mnemonic] at h
  | step => simp [Instr.mnemonic] at h
  | run => simp [Instr.mnemonic] at h

/-- What a command other than RUN can do: give a response and change nothing else, or write GRID as a
new seed (R126, R241). -/
theorem exec_of_ne_run {i : Instr} (h : i ≠ .run) (s : State) :
    (∃ r, exec i s = .next { s with responses := s.responses ++ [r] }) ∨
      ∃ g, exec i s = .next (respond 0 (markSeeded (writeGrid g s))) := by
  cases i with
  | clr => exact .inr ⟨_, exec_clr s⟩
  | step => exact .inr ⟨_, exec_step s⟩
  | setc row col v =>
    by_cases k : row.toNat < 40 ∧ col.toNat < 60
    · exact .inr ⟨_, exec_setc k v s⟩
    · exact .inl ⟨_, (exec_cell_outside k v s).1⟩
  | run => exact absurd rfl h
  | nop => exact .inl (exec_reading (by simp [Instr.mnemonic]) s)
  | rdc row col => exact .inl (exec_reading (by simp [Instr.mnemonic]) s)
  | ncnt row col => exact .inl (exec_reading (by simp [Instr.mnemonic]) s)
  | rdreg reg => exact .inl (exec_reading (by simp [Instr.mnemonic]) s)

theorem exec_reading_state {i : Instr} {s t : State} (ht : exec i s = .next t)
    (h : i.mnemonic ∈ ["NOP", "RDC", "NCNT", "RDREG"]) : t.state = s.state := by
  obtain ⟨r, hr⟩ := exec_reading h s
  obtain rfl := Host.Outcome.next.inj (hr.symm.trans ht)
  rfl

/-- SETC seeds the block exactly when its cell is in range (R123, R126). -/
theorem exec_setc_state {row col : CellField} {v : Bool} {s t : State}
    (ht : exec (.setc row col v) s = .next t) :
    t.state = if row.toNat < 40 ∧ col.toNat < 60 then .seeded else s.state := by
  split_ifs with k
  · obtain rfl := Host.Outcome.next.inj ((exec_setc k v s).symm.trans ht)
    rfl
  · obtain rfl := Host.Outcome.next.inj ((exec_cell_outside k v s).1.symm.trans ht)
    rfl

/-! ### A pass of the run, and the loop -/

/-- What a pass leaves when it is not ended by MAX or REPEAT: counted, stored and scored (steps 3a, 3c
and 3d of R176), before the tests of the next grid. -/
def scoredPass (s : State) : State := scoreNext s.grid.next (storeGrid (countIteration s))

@[simp] theorem scoredPass_grid (s : State) : (scoredPass s).grid = s.grid := rfl
@[simp] theorem scoredPass_state (s : State) : (scoredPass s).state = s.state := rfl
@[simp] theorem scoredPass_cause (s : State) : (scoredPass s).cause = s.cause := rfl
@[simp] theorem scoredPass_gen (s : State) : (scoredPass s).gen = s.gen + 1 := rfl
@[simp] theorem scoredPass_hcnt (s : State) : (scoredPass s).hcnt = s.hcnt + 1 := rfl
@[simp] theorem scoredPass_hist (s : State) :
    (scoredPass s).hist = storeAt s.hist s.hcnt.toNat s.grid := rfl
@[simp] theorem scoredPass_score (s : State) :
    (scoredPass s).score = s.score + BitVec.ofNat 22 s.grid.next.pop := rfl

/-- The five ways a pass can go (R176): `runIter_cases` and `settle_cases` in one. -/
theorem runIter_exits (s : State) :
    (1000 ≤ s.gen.toNat ∧ runIter s = terminate .max s) ∨
    (s.gen.toNat < 1000 ∧ s.grid ∈ s.seen ∧ runIter s = terminate .repeated (countIteration s)) ∨
    (s.gen.toNat < 1000 ∧ s.grid ∉ s.seen ∧ s.grid.next = s.grid ∧
      runIter s = terminate .stable (scoredPass s)) ∨
    (s.gen.toNat < 1000 ∧ s.grid ∉ s.seen ∧ s.grid.next ≠ s.grid ∧ s.grid.next.pop = 0 ∧
      runIter s = terminate .extinct (scoredPass s)) ∨
    (s.gen.toNat < 1000 ∧ s.grid ∉ s.seen ∧ s.grid.next ≠ s.grid ∧ s.grid.next.pop ≠ 0 ∧
      runIter s = writeGrid s.grid.next (scoredPass s)) := by
  rcases runIter_cases s with hmax | hrepeat | ⟨hgen, hnew, e⟩
  · exact .inl hmax
  · exact .inr (.inl hrepeat)
  · refine .inr (.inr ?_)
    rcases settle_cases s.grid.next (storeGrid (countIteration s)) with
      ⟨hstab, f⟩ | ⟨hmove, hdead, f⟩ | ⟨hmove, hlive, f⟩
    · exact .inl ⟨hgen, hnew, hstab, e.trans f⟩
    · exact .inr (.inl ⟨hgen, hnew, hmove, hdead, e.trans f⟩)
    · exact .inr (.inr ⟨hgen, hnew, hmove, hlive, e.trans f⟩)

/-- A pass of a run ends it or leaves it in progress (R27). -/
theorem runIter_state {s : State} (h : s.state = .stepping) :
    (runIter s).state = .stepping ∨ (runIter s).state = .terminated := by
  by_cases ht : (runIter s).state = .terminated
  · exact .inr ht
  · rw [(runIter_of_continues ht).2]
    exact .inl (by simpa using h)

/-- The response at the end of a run does not touch STATE (R170). -/
theorem sequencerStep_state {s t : State} (ht : sequencerStep s = .next t) :
    t.state = (runIter s).state := by
  rcases sequencerStep_cases s with ⟨-, e⟩ | ⟨-, -, e⟩ | ⟨-, -, e⟩
  · exact nomatch e.symm.trans ht
  · obtain rfl := Host.Outcome.next.inj (e.symm.trans ht)
    rfl
  · obtain rfl := Host.Outcome.next.inj (e.symm.trans ht)
    rfl

/-- The loop ends in a pass that ends the run, from a state with every fact `P` that holds at its start
and that a pass keeps while it does not end the run. `fuel` counts the passes that MAX leaves (R191). -/
theorem runLoop_ends_in_pass {P : State → Prop}
    (keeps : ∀ u, P u → (runIter u).state ≠ .terminated → P (runIter u)) (fuel : Nat) {s : State}
    (hstep : s.state = .stepping) (hgen : s.gen.toNat ≤ 1000) (hf : s.gen.toNat + fuel = 1001)
    (hP : P s) :
    ∃ u, P u ∧ (runIter u).state = .terminated ∧ runLoop fuel s = runIter u := by
  induction fuel generalizing s with
  | zero => omega
  | succ fuel ih =>
    rw [runLoop_of_stepping hstep]
    by_cases ht : (runIter s).state = .terminated
    · exact ⟨s, hP, ht, runLoop_of_ended (by simp [ht]) fuel⟩
    · have hlt := (runIter_of_continues ht).1
      have hcount := runIter_gen_of_continues ht
      exact ih ((runIter_state hstep).resolve_right ht) (by omega) (by omega) (keeps s hP ht)

/-- The loop of RUN ends, whatever the seed (R191). -/
theorem runLoop_runInit_state (s : State) : (runLoop 1001 (runInit s)).state = .terminated := by
  obtain ⟨u, -, ht, e⟩ := runLoop_ends_in_pass (P := fun _ => True) (fun _ _ _ => trivial) 1001
    (runInit_state s) (by simp) rfl trivial
  rw [e, ht]

/-- RUN ends in TERMINATED once it has answered (R27, R170). -/
theorem exec_run_state {s t : State} (ht : exec .run s = .next t) : t.state = .terminated := by
  obtain rfl := Host.Outcome.next.inj ((exec_run s).symm.trans ht)
  rw [respond_state, runLoop_runInit_state]

/-! ### The invariant between commands -/

/-- The invariant speaks of the block, not of the host's two lists. -/
theorem readyInv_with_port {s : State} (h : ReadyInv s) (c : List HostEvent) (r : List Word) :
    ReadyInv { s with commands := c, responses := r } := h

/-- In a SEEDED state R44 leaves the bounds of the registers and the store. -/
theorem readyInv_of_seeded {s : State} (hstate : s.state = .seeded) (hcause : s.cause = .none)
    (hgen : s.gen.toNat ≤ 1000) (hhcnt : s.hcnt.toNat ≤ 1000) (hscore : s.score.toNat ≤ 2402400)
    (hnodup : s.seen.Nodup) (hstored : s.hcnt.toNat ≤ s.hist.length)
    (hlen : s.hist.length ≤ 1000) : ReadyInv s := by
  simp [ReadyInv, hstate, hcause, hgen, hhcnt, hscore, hnodup, hstored, hlen]

theorem reset_readyInv : ReadyInv State.reset :=
  readyInv_of_seeded rfl rfl (by decide) (by decide) (by decide) List.nodup_nil le_rfl (Nat.zero_le _)

/-- A new seed keeps the invariant: what the last run left stays (R37, R126). -/
theorem readyInv_of_newSeed {s : State} (h : ReadyInv s) (g : Grid) :
    ReadyInv (markSeeded (writeGrid g s)) := by
  obtain ⟨-, -, hgen, hhcnt, hscore, -, -, -, -, hnodup, hstored, hlen⟩ := h
  exact readyInv_of_seeded rfl rfl hgen hhcnt hscore hnodup hstored hlen

/-! ### The invariant during a run -/

theorem pop_dead : Grid.dead.pop = 0 := by
  simp [Grid.pop, sumTo_eq_sum]

theorem scoreSum_succ (g0 : Grid) (n : Nat) :
    scoreSum g0 (n + 1) = scoreSum g0 n + (generation g0 n).pop := rfl

theorem scoreSum_le (g0 : Grid) (n : Nat) : scoreSum g0 n ≤ n * 2400 :=
  sumTo_le _ n 2400 fun i _ => pop_le (generation g0 i)

/-- What the counters and the store hold in the run of the seed `g0`: the part of R203 that its last
pass still leaves when it is not ended by REPEAT. -/
structure RunRecord (g0 : Grid) (s : State) : Prop where
  fill : s.hcnt = s.gen
  gen_le : s.gen.toNat ≤ 1000
  seen : s.seen = (List.range s.gen.toNat).map (generation g0)
  score : s.score.toNat = scoreSum g0 (s.gen.toNat + 1)
  nodup : s.seen.Nodup
  stored : s.hcnt.toNat ≤ s.hist.length
  length_le : s.hist.length ≤ 1000

theorem runRecord_of_runInv {g0 : Grid} {s : State} (h : RunInv g0 s) : RunRecord g0 s := by
  obtain ⟨-, -, hfill, hgen, -, hseen, hscore, hnodup, -, hstored, hlen⟩ := h
  exact ⟨hfill, hgen, hseen, hscore, hnodup, hstored, hlen⟩

theorem runInv_of_runRecord {g0 : Grid} {s : State} (h : RunRecord g0 s)
    (hstate : s.state = .stepping) (hcause : s.cause = .none)
    (hgrid : s.grid = generation g0 s.gen.toNat)
    (hchanged : ∀ i, i < s.gen.toNat →
      generation g0 (i + 1) ≠ generation g0 i ∧ generation g0 (i + 1) ≠ Grid.dead) :
    RunInv g0 s :=
  ⟨hstate, hcause, h.fill, h.gen_le, hgrid, h.seen, h.score, h.nodup, hchanged, h.stored, h.length_le⟩

/-- The record does not speak of GRID. -/
theorem RunRecord.after_writeGrid {g0 : Grid} {s : State} (h : RunRecord g0 s) (g : Grid) :
    RunRecord g0 (writeGrid g s) :=
  ⟨h.fill, h.gen_le, h.seen, h.score, h.nodup, h.stored, h.length_le⟩

/-- A score of a run fits R44's bound (R201). -/
theorem RunRecord.score_le {g0 : Grid} {s : State} (h : RunRecord g0 s) :
    s.score.toNat ≤ 2402400 := by
  have hsum := scoreSum_le g0 (s.gen.toNat + 1)
  have hgen := h.gen_le
  rw [h.score]
  omega

theorem RunRecord.hcnt_eq {g0 : Grid} {s : State} (h : RunRecord g0 s) :
    s.hcnt.toNat = s.gen.toNat := congrArg BitVec.toNat h.fill

/-- A pass whose grid is new appends it to the valid entries (R181). -/
theorem scoredPass_seen {s : State} (hstored : s.hcnt.toNat ≤ s.hist.length)
    (hfree : s.hcnt.toNat < 1023) : (scoredPass s).seen = s.seen ++ [s.grid] := by
  rw [scoredPass, scoreNext_seen, storeGrid_seen (s := countIteration s) hstored hfree,
    countIteration_seen, countIteration_grid]

/-- A pass adds the population of the next grid to the score of the run (R183). -/
theorem RunRecord.scoredPass_score {g0 : Grid} {s : State} (h : RunRecord g0 s)
    (hgrid : s.grid = generation g0 s.gen.toNat) (hgen : s.gen.toNat < 1000) :
    (scoredPass s).score.toNat = scoreSum g0 (s.gen.toNat + 2) := by
  have hsum := scoreSum_le g0 (s.gen.toNat + 1)
  have hfits : s.score.toNat ≤ 2400 * 1000 := h.score.trans_le (hsum.trans (by omega))
  calc (scoredPass s).score.toNat
      = s.score.toNat + s.grid.next.pop :=
        scoreNext_score_toNat (s := storeGrid (countIteration s)) s.grid.next hfits
    _ = scoreSum g0 (s.gen.toNat + 2) := by rw [h.score, hgrid, scoreSum_succ _ (_ + 1), generation]

/-- Counting, storing and scoring keep the record when the grid is new (R176). -/
theorem RunRecord.after_scoredPass {g0 : Grid} {s : State} (h : RunRecord g0 s)
    (hgrid : s.grid = generation g0 s.gen.toNat) (hgen : s.gen.toNat < 1000)
    (hnew : s.grid ∉ s.seen) : RunRecord g0 (scoredPass s) := by
  have hfill := h.hcnt_eq
  have hlen := h.length_le
  have hseen := scoredPass_seen h.stored (by omega)
  have hcount := toNat_succ (x := s.gen) (by omega)
  have hstore := toNat_succ (x := s.hcnt) (by omega)
  have hhist := length_storeAt s.grid h.stored
  constructor
  case fill => rw [scoredPass_hcnt, scoredPass_gen, h.fill]
  case gen_le => rw [scoredPass_gen]; omega
  case seen =>
    rw [hseen, scoredPass_gen, hcount, h.seen, hgrid, List.range_succ, List.map_append,
      List.map_singleton]
  case score => rw [h.scoredPass_score hgrid hgen, scoredPass_gen, hcount]
  case nodup =>
    rw [hseen]
    exact h.nodup.append (List.nodup_singleton _) (by simpa using hnew)
  case stored => rw [scoredPass_hcnt, scoredPass_hist]; omega
  case length_le => rw [scoredPass_hist]; omega

/-- A run that ends with HCNT = GEN meets R44 (R192). -/
theorem RunRecord.readyInv_terminate {g0 : Grid} {s : State} (h : RunRecord g0 s) {c : Cause}
    (hpos : 1 ≤ s.gen.toNat) (hnone : c ≠ .none) (hrepeat : c ≠ .repeated)
    (hmax : c = .max → s.gen.toNat = 1000) : ReadyInv (terminate c s) := by
  have hhcnt := h.hcnt_eq
  have hfull (e : c = .max) : s.gen.toNat = 1000 ∧ s.hcnt.toNat = 1000 :=
    ⟨hmax e, hhcnt.trans (hmax e)⟩
  exact ⟨nofun, by simp [hnone], h.gen_le, hhcnt.trans_le h.gen_le, h.score_le, fun _ => hpos,
    fun _ e => absurd e hrepeat, fun _ _ => h.fill, fun _ => hfull, h.nodup, h.stored, h.length_le⟩

/-- A run that ends with REPEAT has counted the pass and not stored its grid (R180, R192). -/
theorem RunRecord.readyInv_repeat {g0 : Grid} {s : State} (h : RunRecord g0 s)
    (hgen : s.gen.toNat < 1000) : ReadyInv (terminate .repeated (countIteration s)) := by
  have hhcnt := h.hcnt_eq
  have hcount : (countIteration s).gen.toNat = s.gen.toNat + 1 := toNat_succ (by omega)
  have hpos : 1 ≤ (countIteration s).gen.toNat := by omega
  have hstored : s.hcnt.toNat + 1 = (countIteration s).gen.toNat := by omega
  exact ⟨nofun, by simp, hcount.trans_le hgen, hhcnt.trans_le h.gen_le, h.score_le, fun _ => hpos,
    fun _ _ => hstored, fun _ e => absurd rfl e, fun _ e => by simp at e, h.nodup, h.stored,
    h.length_le⟩

/-- RunInit meets R203 for the seed in GRID. -/
theorem runInit_runInv {s : State} (h : s.hist.length ≤ 1000) : RunInv s.grid (runInit s) := by
  have hpop := pop_le s.grid
  refine ⟨rfl, rfl, rfl, by simp, rfl, rfl, ?_, List.nodup_nil, by simp, Nat.zero_le _, h⟩
  rw [runInit_score, BitVec.toNat_ofNat, Nat.mod_eq_of_lt (by omega)]
  simp [scoreSum, sumTo, generation]

/-- A pass that ends the run with STABLE or EXTINCT leaves R44. -/
theorem readyInv_of_pass_ends {g0 : Grid} {s : State} (h : RunInv g0 s) (hgen : s.gen.toNat < 1000)
    (hnew : s.grid ∉ s.seen) {c : Cause} (hc : c = .stable ∨ c = .extinct) :
    ReadyInv (terminate c (scoredPass s)) := by
  have ⟨_, _, _, _, hgrid, _⟩ := h
  have hpass := (runRecord_of_runInv h).after_scoredPass hgrid hgen hnew
  have hcount : (scoredPass s).gen.toNat = s.gen.toNat + 1 := toNat_succ (by omega)
  rcases hc with rfl | rfl
  · exact hpass.readyInv_terminate (by omega) nofun nofun nofun
  · exact hpass.readyInv_terminate (by omega) nofun nofun nofun

/-- A pass that advances to the next grid keeps R203 (R186). -/
theorem runInv_of_pass_advances {g0 : Grid} {s : State} (h : RunInv g0 s)
    (hgen : s.gen.toNat < 1000) (hnew : s.grid ∉ s.seen) (hmove : s.grid.next ≠ s.grid)
    (hlive : s.grid.next.pop ≠ 0) : RunInv g0 (writeGrid s.grid.next (scoredPass s)) := by
  have ⟨hstate, hcause, _, _, hgrid, _, _, _, hchanged, _⟩ := h
  have hpass := (runRecord_of_runInv h).after_scoredPass hgrid hgen hnew
  have hcount : (scoredPass s).gen.toNat = s.gen.toNat + 1 := toNat_succ (by omega)
  apply runInv_of_runRecord (hpass.after_writeGrid _)
  case hstate => simpa using hstate
  case hcause => simpa using hcause
  case hgrid => rw [writeGrid_grid, writeGrid_gen, hcount, hgrid, generation]
  case hchanged =>
    intro i hi
    rw [writeGrid_gen, hcount] at hi
    rcases Nat.lt_succ_iff_lt_or_eq.1 hi with hlt | rfl
    · exact hchanged i hlt
    · rw [generation, ← hgrid]
      exact ⟨hmove, fun hdead => hlive (hdead ▸ pop_dead)⟩

/-- A pass leaves R44 when it ends the run, and keeps R203 when it does not. -/
theorem runIter_keeps_runInv {g0 : Grid} {s : State} (h : RunInv g0 s) :
    ((runIter s).state = .terminated ∧ ReadyInv (runIter s)) ∨
      ((runIter s).state = .stepping ∧ RunInv g0 (runIter s)) := by
  have hrec := runRecord_of_runInv h
  rcases runIter_exits s with ⟨hfull, e⟩ | ⟨hgen, -, e⟩ | ⟨hgen, hnew, -, e⟩ |
    ⟨hgen, hnew, -, -, e⟩ | ⟨hgen, hnew, hmove, hlive, e⟩
  · have hmax := hrec.gen_le.antisymm hfull
    rw [e]
    exact .inl ⟨rfl, hrec.readyInv_terminate (by omega) nofun nofun fun _ => hmax⟩
  · rw [e]
    exact .inl ⟨rfl, hrec.readyInv_repeat hgen⟩
  · rw [e]
    exact .inl ⟨rfl, readyInv_of_pass_ends h hgen hnew (.inl rfl)⟩
  · rw [e]
    exact .inl ⟨rfl, readyInv_of_pass_ends h hgen hnew (.inr rfl)⟩
  · have hinv := runInv_of_pass_advances h hgen hnew hmove hlive
    rw [e]
    exact .inr ⟨hinv.1, hinv⟩

/-- RUN leaves R44 (R44, R203): the loop keeps R203 up to its last pass. -/
theorem runLoop_runInit_readyInv {s : State} (h : s.hist.length ≤ 1000) :
    ReadyInv (runLoop 1001 (runInit s)) := by
  obtain ⟨u, hinv, hend, e⟩ := runLoop_ends_in_pass (P := RunInv s.grid)
    (fun u hu hgoes => ((runIter_keeps_runInv hu).resolve_left fun hend => hgoes hend.1).2) 1001
    (runInit_state s) (Nat.zero_le _) rfl (runInit_runInv h)
  rw [e]
  exact ((runIter_keeps_runInv hinv).resolve_right fun hgoes => by simp [hend] at hgoes).2

/-! ### The invariant of the machine -/

/-- Every command keeps the invariant between commands. -/
theorem exec_keeps_readyInv {i : Instr} {s t : State} (h : ReadyInv s) (ht : exec i s = .next t) :
    ReadyInv t := by
  by_cases hi : i = .run
  · subst hi
    obtain ⟨-, -, -, -, -, -, -, -, -, -, -, hlen⟩ := h
    obtain rfl := Host.Outcome.next.inj ((exec_run s).symm.trans ht)
    exact readyInv_with_port (runLoop_runInit_readyInv hlen) _ _
  · rcases exec_of_ne_run hi s with ⟨r, e⟩ | ⟨g, e⟩
    · obtain rfl := Host.Outcome.next.inj (e.symm.trans ht)
      exact readyInv_with_port h _ _
    · obtain rfl := Host.Outcome.next.inj (e.symm.trans ht)
      exact readyInv_with_port (readyInv_of_newSeed h g) _ _

theorem acceptWord_keeps_readyInv {w : Word} {s t : State} (h : ReadyInv s)
    (ht : acceptWord w s = .next t) : ReadyInv t := by
  cases hd : decode w with
  | ok i => exact exec_keeps_readyInv h ((acceptWord_of_decode hd s).symm.trans ht)
  | error e =>
    obtain rfl := Host.Outcome.next.inj ((acceptWord_of_error hd s).symm.trans ht)
    exact readyInv_with_port h _ _

/-- The sequencer keeps R203, or ends the run in R44. -/
theorem sequencerStep_keeps_inv {g0 : Grid} {s t : State} (h : RunInv g0 s)
    (ht : sequencerStep s = .next t) :
    (t.state = .terminated ∧ ReadyInv t) ∨ (t.state = .stepping ∧ RunInv g0 t) := by
  have hpass := runIter_keeps_runInv h
  rcases sequencerStep_cases s with ⟨-, e⟩ | ⟨-, hend, e⟩ | ⟨-, hgoes, e⟩
  · exact nomatch e.symm.trans ht
  · obtain rfl := Host.Outcome.next.inj (e.symm.trans ht)
    have hready := (hpass.resolve_right fun hgoes => by simp [hend] at hgoes).2
    exact .inl ⟨hend, readyInv_with_port hready _ _⟩
  · obtain rfl := Host.Outcome.next.inj (e.symm.trans ht)
    exact hpass

/-! ### The codes -/

/-- STATUS as a number: the fields of R32 do not overlap. -/
theorem statusValue_toNat (s : State) :
    (statusValue s).toNat = 4 * (causeCode s.cause).toNat + (stateCode s.state).toNat := by
  rw [statusValue, BitVec.toNat_append, ← Nat.shiftLeft_add_eq_or_of_lt (stateCode s.state).isLt,
    Nat.shiftLeft_eq, Nat.mul_comm]

/-! ### The obligations of `10_state.md` -/

/-- Settles O35, by what the block meets: reset, a command, or a pass of the run. -/
theorem stepKeepsInvariant : Obligations.StepKeepsInvariant := by
  unfold Obligations.StepKeepsInvariant
  intro s t hinv ht
  rcases step_cases s with ⟨-, -, e⟩ | ⟨rest, -, e⟩ | ⟨hstep, -, e⟩ | ⟨w, rest, hready, -, e⟩
  · obtain rfl := Host.Outcome.next.inj (e.symm.trans ht)
    exact hinv
  · obtain rfl := Host.Outcome.next.inj (e.symm.trans ht)
    exact .inl (readyInv_with_port reset_readyInv _ _)
  · obtain ⟨hready, -⟩ | ⟨g0, hrun⟩ := hinv
    · exact absurd hstep hready
    · rcases sequencerStep_keeps_inv hrun (e.symm.trans ht) with ⟨-, h⟩ | ⟨-, h⟩
      · exact .inl h
      · exact .inr ⟨g0, h⟩
  · obtain h | ⟨g0, hstep, -⟩ := hinv
    · exact .inl (acceptWord_keeps_readyInv (readyInv_with_port h _ s.responses) (e.symm.trans ht))
    · exact absurd hstep hready

/-- Settles O10: the other commands respond or write GRID as a new seed. -/
theorem onlyRunWritesResults : Obligations.OnlyRunWritesResults := by
  unfold Obligations.OnlyRunWritesResults
  intro i s t hi ht
  rcases exec_of_ne_run hi s with ⟨r, e⟩ | ⟨g, e⟩
  · obtain rfl := Host.Outcome.next.inj (e.symm.trans ht)
    exact ⟨rfl, rfl, rfl, rfl⟩
  · obtain rfl := Host.Outcome.next.inj (e.symm.trans ht)
    exact ⟨rfl, rfl, rfl, rfl⟩

/-- Settles O43, command by command; RUN's own loop ends in TERMINATED. -/
theorem stateTransitions : Obligations.StateTransitions := by
  unfold Obligations.StateTransitions
  refine ⟨fun s rest hc => ⟨_, step_of_reset hc, rfl⟩, fun s w rest hacc => ?_, runInit_state,
    fun s t hiter ht => ?_, fun s hc hready => step_of_idle hc hready⟩
  · rw [step_of_accepts hacc]
    cases hd : decode w with
    | error e => exact ⟨_, acceptWord_of_error hd _, rfl⟩
    | ok i =>
      obtain ⟨t, ht⟩ := exec_next i { s with commands := rest }
      refine ⟨t, (acceptWord_of_decode hd _).trans ht, ?_⟩
      cases i with
      | nop => rw [exec_reading_state ht (by simp [Instr.mnemonic])]
      | rdc row col => rw [exec_reading_state ht (by simp [Instr.mnemonic])]
      | ncnt row col => rw [exec_reading_state ht (by simp [Instr.mnemonic])]
      | rdreg reg => rw [exec_reading_state ht (by simp [Instr.mnemonic])]
      | clr =>
        obtain rfl := Host.Outcome.next.inj ((exec_clr _).symm.trans ht)
        rfl
      | step =>
        obtain rfl := Host.Outcome.next.inj ((exec_step _).symm.trans ht)
        rfl
      | setc row col v => rw [exec_setc_state ht]
      | run => exact exec_run_state ht
  · have ⟨hstep, _⟩ := hiter
    rw [sequencerStep_state ((step_of_iterating hiter).symm.trans ht)]
    exact runIter_state hstep

/-- Settles O48: STATUS by its fields; R44 leaves five pairs of STATE and CAUSE. -/
theorem statusValues : Obligations.StatusValues := by
  unfold Obligations.StatusValues
  refine ⟨⟨rfl, rfl, rfl⟩, ⟨rfl, rfl, rfl, rfl, rfl⟩, fun s => ⟨statusValue_toNat s, ?_⟩, ?_, ?_⟩
  · exact BitVec.toNat_setWidth_of_le (by decide)
  · rintro s ⟨hready, hnone, -⟩
    rw [statusValue_toNat]
    cases hs : s.state with
    | stepping => exact absurd hs hready
    | seeded => exact .inl ⟨rfl, hnone.2 hs, by rw [hnone.2 hs]; rfl⟩
    | terminated =>
      refine .inr ?_
      cases hc : s.cause with
      | none => simp [hnone.1 hc] at hs
      | repeated => exact .inl ⟨rfl, rfl, rfl⟩
      | stable => exact .inr (.inl ⟨rfl, rfl, rfl⟩)
      | extinct => exact .inr (.inr (.inl ⟨rfl, rfl, rfl⟩))
      | max => exact .inr (.inr (.inr ⟨rfl, rfl, rfl⟩))
  · intro s
    exact ⟨decide_eq_true_iff, decide_eq_true_iff⟩

/-- Settles O36: a SEEDED state with registers 0 and no valid entry. -/
theorem resetMeetsInvariant : Obligations.ResetMeetsInvariant := reset_readyInv

/-- Settles O46: the fields by their definition, the registers by `exec_rdreg`. -/
theorem resetValues : Obligations.ResetValues := by
  unfold Obligations.ResetValues
  refine ⟨cell_dead, rfl, rfl, rfl, rfl, rfl, rfl, rfl, rfl, rfl, ?_, ?_, ?_⟩
  · exact exec_rdreg (n := .config) rfl State.reset
  · exact exec_rdreg (n := .status) rfl State.reset
  · rw [exec_rdreg (n := .pop) rfl, regValue, show State.reset.grid.pop = 0 from pop_dead]
    rfl

end Sys2Proof.Machine
end

section
/-! PROOF. The block has no memory but its state (`20_memory.md`): the order of cells in `Flat` and in
the row registers, reads and repeated writes, the fold over a sequence of words, and several blocks. -/

namespace Sys2Proof.Machine

/-! ### Flat and the row registers -/

/-- A bit of `Flat`, by its place in row-major order (R66). -/
theorem getLsbD_flat (g : Grid) (i : Nat) :
    g.flat.getLsbD i = (decide (i < 2400) && g.cell (i / 60) (i % 60)) := by
  simp [Grid.flat, BitVec.getLsbD_ofNat, testBit_bitsOf]

/-- The bit of `Flat` that holds a cell of the grid (R66). -/
theorem getLsbD_flat_cell (g : Grid) {r c : Nat} (hr : r < 40) (hc : c < 60) :
    g.flat.getLsbD (60 * r + c) = g.cell r c := by
  have hbit : 60 * r + c < 2400 := by omega
  have hrow : (60 * r + c) / 60 = r := by omega
  have hcol : (60 * r + c) % 60 = c := by omega
  rw [getLsbD_flat, hrow, hcol, decide_eq_true hbit, Bool.true_and]

theorem flat_injective : Function.Injective Grid.flat := fun g h e =>
  grid_ext fun r c hr hc => by rw [← getLsbD_flat_cell g hr hc, e, getLsbD_flat_cell h hr hc]

/-- The grid whose cells are the bits of a 2400-bit word in the order of R66. -/
def Grid.ofFlat (v : BitVec 2400) : Grid := Grid.ofFn fun r c => v.getLsbD (60 * r + c)

@[simp] theorem flat_ofFlat (v : BitVec 2400) : (Grid.ofFlat v).flat = v := by
  refine BitVec.eq_of_getLsbD_eq fun i hi => ?_
  have hrow : i / 60 < 40 := by omega
  have hcol : i % 60 < 60 := by omega
  rw [getLsbD_flat, Grid.ofFlat, cell_ofFn, Nat.div_add_mod]
  simp [hi, hrow, hcol]

/-- A row register is its slice of `Flat` (R67). -/
theorem extractLsb'_flat (g : Grid) {r : Nat} (hr : r < 40) :
    g.flat.extractLsb' (60 * r) 60 = g.row r := by
  refine BitVec.eq_of_getLsbD_eq fun c hc => ?_
  rw [BitVec.getLsbD_extractLsb', getLsbD_flat_cell g hr hc]
  simp [hc, Grid.cell]

/-- Of two writes to one cell the later one stands (R123). -/
@[simp] theorem setCell_setCell (g : Grid) (r c : Nat) (v w : Bool) :
    (g.setCell r c v).setCell r c w = g.setCell r c w := by
  refine grid_ext fun y x _ _ => ?_
  simp only [cell_setCell]
  split_ifs <;> rfl

/-! ### Reads and repeated writes -/

/-- What a read answers does not depend on what has been answered before it (R71, R121). -/
theorem exec_reading_with_responses {i : Instr} (h : i.mnemonic ∈ ["NOP", "RDC", "NCNT", "RDREG"])
    (s : State) :
    ∃ r, ∀ l, exec i { s with responses := l } = .next { s with responses := l ++ [r] } := by
  cases i with
  | nop => exact ⟨okWord 0, fun l => exec_nop _⟩
  | rdc row col =>
    by_cases k : row.toNat < 40 ∧ col.toNat < 60
    · exact ⟨okWord (BitVec.ofNat 31 (s.grid.cell row.toNat col.toNat).toNat), fun l => exec_rdc k _⟩
    · exact ⟨errorWord .badAddr, fun l => (exec_cell_outside k true _).2.1⟩
  | ncnt row col =>
    by_cases k : row.toNat < 40 ∧ col.toNat < 60
    · exact ⟨okWord (BitVec.ofNat 31 (s.grid.nCount row.toNat col.toNat)), fun l => exec_ncnt k _⟩
    · exact ⟨errorWord .badAddr, fun l => (exec_cell_outside k true _).2.2⟩
  | rdreg reg =>
    cases k : regOperand reg with
    | none => exact ⟨errorWord .badReg, fun l => exec_rdreg_outside k _⟩
    | some n => exact ⟨okWord (regValue n s), fun l => by rw [exec_rdreg k]; cases n <;> rfl⟩
  | clr | setc | step | run => simp [Instr.mnemonic] at h

theorem execAll_cons {i : Instr} {s t : State} (h : exec i s = .next t) (is : List Instr) :
    execAll (i :: is) s = execAll is t := by
  simp only [execAll, h]

/-- CLR and SETC again: the block stays as the first left it, but for the response (R121). -/
theorem exec_write_again {i : Instr} (h : i.mnemonic ∈ ["CLR", "SETC"]) {s t u : State}
    (ht : exec i s = .next t) (hu : exec i t = .next u) : u = { t with responses := u.responses } := by
  cases i with
  | clr =>
    obtain rfl := Host.Outcome.next.inj ((exec_clr s).symm.trans ht)
    obtain rfl := Host.Outcome.next.inj ((exec_clr _).symm.trans hu)
    rfl
  | setc row col v =>
    by_cases k : row.toNat < 40 ∧ col.toNat < 60
    · obtain rfl := Host.Outcome.next.inj ((exec_setc k v s).symm.trans ht)
      obtain rfl := Host.Outcome.next.inj ((exec_setc k v _).symm.trans hu)
      simp [respond, markSeeded, writeGrid]
    · obtain rfl := Host.Outcome.next.inj ((exec_cell_outside k v t).1.symm.trans hu)
      rfl
  | nop | rdc | ncnt | rdreg | step | run => simp [Instr.mnemonic] at h

/-! ### The fold over a sequence of words -/

theorem acceptAll_cons {w : Word} {s t : State} (h : acceptWord w s = .next t) (ws : List Word) :
    acceptAll (w :: ws) s = acceptAll ws t := by
  simp only [acceptAll, h]

/-- The effect of a word does not depend on what the host presents after it (R75, R111). -/
theorem acceptWord_with_commands {w : Word} {s t : State} (h : acceptWord w s = .next t)
    (c : List HostEvent) :
    acceptWord w { s with commands := c } = .next { t with commands := c } := by
  cases hd : decode w with
  | ok i =>
    rw [acceptWord_of_decode hd] at h ⊢
    exact exec_with_commands i s t c h
  | error e =>
    rw [acceptWord_of_error hd] at h ⊢
    obtain rfl := Host.Outcome.next.inj h
    rfl

/-- A word takes nothing from the host's list. -/
theorem acceptWord_commands {w : Word} {s t : State} (h : acceptWord w s = .next t) :
    t.commands = s.commands := by
  have hsame : t = { t with commands := s.commands } :=
    Host.Outcome.next.inj (h.symm.trans (acceptWord_with_commands h s.commands))
  rw [hsame]

/-- A command leaves a ready block ready, with one response more (R27, R108). -/
theorem exec_answers_once {i : Instr} {s t : State} (hready : s.state ≠ .stepping)
    (h : exec i s = .next t) :
    t.state ≠ .stepping ∧ t.responses.length = s.responses.length + 1 := by
  by_cases hi : i = .run
  · subst hi
    refine ⟨by simp [exec_run_state h], ?_⟩
    obtain rfl := Host.Outcome.next.inj ((exec_run s).symm.trans h)
    simp
  · rcases exec_of_ne_run hi s with ⟨r, e⟩ | ⟨g, e⟩
    · obtain rfl := Host.Outcome.next.inj (e.symm.trans h)
      exact ⟨hready, by simp⟩
    · obtain rfl := Host.Outcome.next.inj (e.symm.trans h)
      simp

/-- Every word is answered once, legal or not, and a ready block stays ready (R108, R241). -/
theorem acceptWord_answers_once (w : Word) {s : State} (hready : s.state ≠ .stepping) :
    ∃ t, acceptWord w s = .next t ∧ t.state ≠ .stepping ∧
      t.responses.length = s.responses.length + 1 := by
  cases hd : decode w with
  | ok i =>
    obtain ⟨t, ht⟩ := exec_next i s
    exact ⟨t, (acceptWord_of_decode hd s).trans ht, exec_answers_once hready ht⟩
  | error e => exact ⟨raise e s, acceptWord_of_error hd s, hready, by simp⟩

/-- The fold ends in a ready block, with a response for each word. -/
theorem acceptAll_answers_each (ws : List Word) {s : State} (hready : s.state ≠ .stepping) :
    ∃ t, acceptAll ws s = .next t ∧ t.state ≠ .stepping ∧
      t.responses.length = s.responses.length + ws.length := by
  induction ws generalizing s with
  | nil => exact ⟨s, rfl, hready, rfl⟩
  | cons w ws ih =>
    obtain ⟨t, ht, htready, hlen⟩ := acceptWord_answers_once w hready
    obtain ⟨u, hu, huready, hulen⟩ := ih htready
    refine ⟨u, (acceptAll_cons ht ws).trans hu, huready, ?_⟩
    rw [hulen, hlen, List.length_cons]
    omega

/-- The steps of a ready block are the fold over the words presented (R75). -/
theorem core_run_eq_acceptAll (ws : List Word) {s : State} (rest : List HostEvent)
    (hready : s.state ≠ .stepping) (hcmd : s.commands = ws.map HostEvent.command ++ rest) :
    Host.Core.run Sys2Proof.core ws.length s = acceptAll ws { s with commands := rest } := by
  induction ws generalizing s with
  | nil =>
    have hrest : s.commands = rest := hcmd
    subst hrest
    rfl
  | cons w ws ih =>
    obtain ⟨t, ht, htready, -⟩ :=
      acceptWord_answers_once w (s := { s with commands := rest }) hready
    have hstep : step s = .next { t with commands := ws.map HostEvent.command ++ rest } :=
      (step_of_accepts ⟨hready, hcmd⟩).trans (acceptWord_with_commands ht _)
    obtain rfl : t.commands = rest := acceptWord_commands ht
    have hfold := ih (s := { t with commands := ws.map HostEvent.command ++ t.commands }) htready rfl
    exact (core_run_succ hstep _).trans (hfold.trans (acceptAll_cons ht ws).symm)

/-! ### Several blocks -/

/-- What a step of a system can do: nothing where there is no such block, else the step of that block
in its place (R82, R256). -/
theorem systemStep_cases {k : Nat} {blocks after : List State}
    (h : systemStep k blocks = .next after) :
    (blocks[k]? = none ∧ after = blocks) ∨
      ∃ s t, blocks[k]? = some s ∧ step s = .next t ∧ after = blocks.set k t := by
  cases hk : blocks[k]? with
  | none =>
    simp only [systemStep, hk, Host.Outcome.next.injEq] at h
    exact .inl ⟨rfl, h.symm⟩
  | some s =>
    cases ht : step s with
    | next t =>
      simp only [systemStep, hk, ht, Host.Outcome.next.injEq] at h
      exact .inr ⟨s, t, rfl, ht, h.symm⟩
    | fault f => simp [systemStep, hk, ht] at h
    | refused r => simp [systemStep, hk, ht] at h

/-! ### The obligations of `20_memory.md` -/

/-- Settles O9: a read answers by the block alone, and a repeated write finds its own grid. -/
theorem readsHaveNoSideEffect : Obligations.ReadsHaveNoSideEffect := by
  unfold Obligations.ReadsHaveNoSideEffect
  refine ⟨fun i s hi => ?_, fun i s t u hi => exec_write_again hi⟩
  obtain ⟨r, hr⟩ := exec_reading_with_responses hi s
  have hfirst : exec i s = .next { s with responses := s.responses ++ [r] } := hr s.responses
  refine ⟨r, hfirst, ?_⟩
  rw [execAll_cons hfirst, execAll_cons (hr _), List.append_assoc]
  rfl

/-- Settles O24, from the bits of `Flat`; `Grid.ofFlat` is its inverse. -/
theorem flatIsOneToOne : Obligations.FlatIsOneToOne := by
  unfold Obligations.FlatIsOneToOne
  exact ⟨fun g _ _ => getLsbD_flat_cell g, fun _ _ => grid_eq_iff,
    fun _ _ => flat_injective.eq_iff.symm, fun v => ⟨Grid.ofFlat v, flat_ofFlat v⟩⟩

/-- Settles O25: a cell is read from its row register, and the register is its slice of `Flat`. -/
theorem rowRegisters : Obligations.RowRegisters := by
  unfold Obligations.RowRegisters
  exact fun g r hr => ⟨fun _ _ => rfl, extractLsb'_flat g hr⟩

/-- Settles O45, by induction on the words. -/
theorem wordsAreFolded : Obligations.WordsAreFolded := by
  unfold Obligations.WordsAreFolded
  intro ws s rest hready hcmd
  exact ⟨core_run_eq_acceptAll ws rest hready hcmd,
    acceptAll_answers_each ws (s := { s with commands := rest }) hready⟩

/-- Settles O52: a step of a system sets the moved block alone. -/
theorem blocksAreIndependent : Obligations.BlocksAreIndependent := by
  unfold Obligations.BlocksAreIndependent
  intro k blocks after h
  rcases systemStep_cases h with ⟨hnone, rfl⟩ | ⟨s, t, hk, ht, rfl⟩
  · exact ⟨rfl, fun _ _ => rfl, fun s hs => by simp [hnone] at hs⟩
  · refine ⟨List.length_set, fun j hj => List.getElem?_set_ne hj.symm, fun s' hs' => ?_⟩
    obtain rfl := Option.some.inj (hk.symm.trans hs')
    obtain ⟨hlt, -⟩ := List.getElem?_eq_some_iff.1 hk
    exact ⟨t, List.getElem?_set_self hlt, ht⟩

end Sys2Proof.Machine
end

section
/-! PROOF. The command words: what the decoder answers for each opcode, the encoder as its inverse,
the opcode map, the legal words and the checks of an accepted word (`30_encoding.md` R90 to
R102). -/

namespace Sys2Proof.Machine

open Sys2Proof.Safety

/-! ### The decoder, opcode by opcode -/

theorem decode_of_illegal {w : Word} (h : illegalWord w = true) : decode w = .error .illegal := by
  simp only [decode, h, if_true]

theorem decode_of_named {w : Word} {i : Instr} (h : illegalWord w = false)
    (hi : namedCommand w = some i) : decode w = .ok i := by
  simp [decode, h, hi]

/-- A word that names a command decodes to it, unless its must-be-zero bits are not (R98). -/
theorem decode_of_zeroBits {w : Word} {i : Instr} {zero : Prop} [Decidable zero]
    (hi : namedCommand w = some i) (h : illegalWord w = decide (¬ zero)) :
    decode w = if zero then .ok i else .error .illegal := by
  split_ifs with hz
  · exact decode_of_named (by simp [h, hz]) hi
  · exact decode_of_illegal (by simp [h, hz])

theorem decode_reserved {w : Word} (h : 8 ≤ w.toNat / 2 ^ 28) : decode w = .error .illegal :=
  decode_of_illegal (by rw [illegalWord_eq, if_pos h])

theorem decode_nop {w : Word} (h : w.toNat / 2 ^ 28 = 0) :
    decode w = if w.toNat % 2 ^ 28 = 0 then .ok .nop else .error .illegal :=
  decode_of_zeroBits (by simp only [namedCommand, opField_toNat, h])
    (by rw [illegalWord_eq, h]; simp)

theorem decode_clr {w : Word} (h : w.toNat / 2 ^ 28 = 1) :
    decode w = if w.toNat % 2 ^ 28 = 0 then .ok .clr else .error .illegal :=
  decode_of_zeroBits (by simp only [namedCommand, opField_toNat, h])
    (by rw [illegalWord_eq, h]; simp)

theorem decode_setc {w : Word} (h : w.toNat / 2 ^ 28 = 2) :
    decode w = if w.toNat / 2 % 2 ^ 15 = 0 then .ok (.setc (rowField w) (colField w) (vField w))
      else .error .illegal :=
  decode_of_zeroBits (by simp only [namedCommand, opField_toNat, h])
    (by rw [illegalWord_eq, h]; simp)

theorem decode_rdc {w : Word} (h : w.toNat / 2 ^ 28 = 3) :
    decode w = if w.toNat % 2 ^ 16 = 0 then .ok (.rdc (rowField w) (colField w))
      else .error .illegal :=
  decode_of_zeroBits (by simp only [namedCommand, opField_toNat, h])
    (by rw [illegalWord_eq, h]; simp)

theorem decode_ncnt {w : Word} (h : w.toNat / 2 ^ 28 = 4) :
    decode w = if w.toNat % 2 ^ 16 = 0 then .ok (.ncnt (rowField w) (colField w))
      else .error .illegal :=
  decode_of_zeroBits (by simp only [namedCommand, opField_toNat, h])
    (by rw [illegalWord_eq, h]; simp)

theorem decode_step {w : Word} (h : w.toNat / 2 ^ 28 = 5) :
    decode w = if w.toNat % 2 ^ 28 = 0 then .ok .step else .error .illegal :=
  decode_of_zeroBits (by simp only [namedCommand, opField_toNat, h])
    (by rw [illegalWord_eq, h]; simp)

theorem decode_run {w : Word} (h : w.toNat / 2 ^ 28 = 6) :
    decode w = if w.toNat % 2 ^ 28 = 0 then .ok .run else .error .illegal :=
  decode_of_zeroBits (by simp only [namedCommand, opField_toNat, h])
    (by rw [illegalWord_eq, h]; simp)

theorem decode_rdreg {w : Word} (h : w.toNat / 2 ^ 28 = 7) :
    decode w = if w.toNat % 2 ^ 24 = 0 then .ok (.rdreg (regField w)) else .error .illegal :=
  decode_of_zeroBits (by simp only [namedCommand, opField_toNat, h])
    (by rw [illegalWord_eq, h]; simp)

theorem op_cases (w : Word) :
    8 ≤ w.toNat / 2 ^ 28 ∨ w.toNat / 2 ^ 28 = 0 ∨ w.toNat / 2 ^ 28 = 1 ∨ w.toNat / 2 ^ 28 = 2 ∨
      w.toNat / 2 ^ 28 = 3 ∨ w.toNat / 2 ^ 28 = 4 ∨ w.toNat / 2 ^ 28 = 5 ∨
      w.toNat / 2 ^ 28 = 6 ∨ w.toNat / 2 ^ 28 = 7 := by
  omega

/-! ### The encoder -/

theorem encode_setc_toNat (row col : CellField) (v : Bool) :
    (encode (.setc row col v)).toNat
      = 0x20000000 + row.toNat * 2 ^ 22 + col.toNat * 2 ^ 16 + v.toNat := by
  have := row.isLt
  have := col.isLt
  have := v.toNat_lt
  simp only [encode, BitVec.toNat_ofNat]
  omega

theorem encode_rdc_toNat (row col : CellField) :
    (encode (.rdc row col)).toNat = 0x30000000 + row.toNat * 2 ^ 22 + col.toNat * 2 ^ 16 := by
  have := row.isLt
  have := col.isLt
  simp only [encode, BitVec.toNat_ofNat]
  omega

theorem encode_ncnt_toNat (row col : CellField) :
    (encode (.ncnt row col)).toNat = 0x40000000 + row.toNat * 2 ^ 22 + col.toNat * 2 ^ 16 := by
  have := row.isLt
  have := col.isLt
  simp only [encode, BitVec.toNat_ofNat]
  omega

theorem encode_rdreg_toNat (reg : RegField) :
    (encode (.rdreg reg)).toNat = 0x70000000 + reg.toNat * 2 ^ 24 := by
  have := reg.isLt
  simp only [encode, BitVec.toNat_ofNat]
  omega

theorem rowField_toNat (w : Word) : (rowField w).toNat = w.toNat / 2 ^ 22 % 2 ^ 6 := by
  rw [rowField_eq, BitVec.toNat_ofNat]

theorem colField_toNat (w : Word) : (colField w).toNat = w.toNat / 2 ^ 16 % 2 ^ 6 := by
  rw [colField_eq, BitVec.toNat_ofNat]

theorem regField_toNat (w : Word) : (regField w).toNat = w.toNat / 2 ^ 24 % 2 ^ 4 := by
  rw [regField_eq, BitVec.toNat_ofNat]

theorem vField_toNat (w : Word) : (vField w).toNat = w.toNat % 2 := by
  rw [vField_eq]
  rcases Nat.mod_two_eq_zero_or_one w.toNat with h | h <;> simp [h]

/-- The `row` and `col` fields of a word that is made of them above bit 16 (R92). -/
theorem cellFields_eq {w : Word} {row col : CellField} {op low : Nat} (hlow : low < 2 ^ 16)
    (h : w.toNat = op * 2 ^ 28 + row.toNat * 2 ^ 22 + col.toNat * 2 ^ 16 + low) :
    rowField w = row ∧ colField w = col := by
  have := row.isLt
  have := col.isLt
  constructor
  · apply BitVec.eq_of_toNat_eq
    rw [rowField_toNat]
    omega
  · apply BitVec.eq_of_toNat_eq
    rw [colField_toNat]
    omega

/-- Decoding the word of a command gives back the command (R102). -/
theorem decode_encode (i : Instr) : decode (encode i) = .ok i := by
  cases i with
  | nop => exact decode_nop (w := encode .nop) rfl
  | clr => exact decode_clr (w := encode .clr) rfl
  | step => exact decode_step (w := encode .step) rfl
  | run => exact decode_run (w := encode .run) rfl
  | setc row col v =>
    have he := encode_setc_toNat row col v
    have := row.isLt
    have := col.isLt
    have := v.toNat_lt
    obtain ⟨hrow, hcol⟩ := cellFields_eq (op := 2) (low := v.toNat) (by omega) he
    have hv : vField (encode (.setc row col v)) = v := by
      rw [vField_eq, he]
      cases v <;> simp <;> omega
    rw [decode_setc (by omega), if_pos (by omega), hrow, hcol, hv]
  | rdc row col =>
    have he := encode_rdc_toNat row col
    have := row.isLt
    have := col.isLt
    obtain ⟨hrow, hcol⟩ := cellFields_eq (op := 3) (low := 0) (by decide) he
    rw [decode_rdc (by omega), if_pos (by omega), hrow, hcol]
  | ncnt row col =>
    have he := encode_ncnt_toNat row col
    have := row.isLt
    have := col.isLt
    obtain ⟨hrow, hcol⟩ := cellFields_eq (op := 4) (low := 0) (by decide) he
    rw [decode_ncnt (by omega), if_pos (by omega), hrow, hcol]
  | rdreg reg =>
    have he := encode_rdreg_toNat reg
    have := reg.isLt
    have hreg : regField (encode (.rdreg reg)) = reg := by
      apply BitVec.eq_of_toNat_eq
      rw [regField_toNat]
      omega
    rw [decode_rdreg (by omega), if_pos (by omega), hreg]

/-- What a decoded word says of its must-be-zero bits and its named command. -/
theorem of_ite_ok_eq_ok {i j : Instr} {zero : Prop} [Decidable zero]
    (h : (if zero then .ok j else .error .illegal : Except CommandError Instr) = .ok i) :
    zero ∧ j = i := by
  split_ifs at h with hz
  exact ⟨hz, Except.ok.inj h⟩

/-- A word is its opcode, its fields and its must-be-zero bits, so encoding what it decodes to
gives it back (R102). -/
theorem encode_of_decode {w : Word} {i : Instr} (h : decode w = .ok i) : encode i = w := by
  apply BitVec.eq_of_toNat_eq
  rcases op_cases w with op | op | op | op | op | op | op | op | op
  · simp [decode_reserved op] at h
  · obtain ⟨hz, rfl⟩ := of_ite_ok_eq_ok ((decode_nop op).symm.trans h)
    change 0 = w.toNat
    omega
  · obtain ⟨hz, rfl⟩ := of_ite_ok_eq_ok ((decode_clr op).symm.trans h)
    change 0x10000000 = w.toNat
    omega
  · obtain ⟨hz, rfl⟩ := of_ite_ok_eq_ok ((decode_setc op).symm.trans h)
    rw [encode_setc_toNat, rowField_toNat, colField_toNat, vField_toNat]
    omega
  · obtain ⟨hz, rfl⟩ := of_ite_ok_eq_ok ((decode_rdc op).symm.trans h)
    rw [encode_rdc_toNat, rowField_toNat, colField_toNat]
    omega
  · obtain ⟨hz, rfl⟩ := of_ite_ok_eq_ok ((decode_ncnt op).symm.trans h)
    rw [encode_ncnt_toNat, rowField_toNat, colField_toNat]
    omega
  · obtain ⟨hz, rfl⟩ := of_ite_ok_eq_ok ((decode_step op).symm.trans h)
    change 0x50000000 = w.toNat
    omega
  · obtain ⟨hz, rfl⟩ := of_ite_ok_eq_ok ((decode_run op).symm.trans h)
    change 0x60000000 = w.toNat
    omega
  · obtain ⟨hz, rfl⟩ := of_ite_ok_eq_ok ((decode_rdreg op).symm.trans h)
    rw [encode_rdreg_toNat, regField_toNat]
    omega

theorem decode_eq_ok_iff (w : Word) (i : Instr) : decode w = .ok i ↔ encode i = w :=
  ⟨encode_of_decode, fun h => h ▸ decode_encode i⟩

theorem encode_injective : Function.Injective encode := fun i j h =>
  Except.ok.inj ((decode_encode i).symm.trans ((decode_eq_ok_iff _ j).2 h.symm))

/-! ### The opcode map -/

/-- The row of the opcode map for a command (R95). -/
def Instr.opcodeRow : Instr → OpcodeRow
  | .nop => ⟨"NOP", 0x00000000, 0xFFFFFFFF⟩
  | .clr => ⟨"CLR", 0x10000000, 0xFFFFFFFF⟩
  | .setc _ _ _ => ⟨"SETC", 0x20000000, 0xF000FFFE⟩
  | .rdc _ _ => ⟨"RDC", 0x30000000, 0xF000FFFF⟩
  | .ncnt _ _ => ⟨"NCNT", 0x40000000, 0xF000FFFF⟩
  | .step => ⟨"STEP", 0x50000000, 0xFFFFFFFF⟩
  | .run => ⟨"RUN", 0x60000000, 0xFFFFFFFF⟩
  | .rdreg _ => ⟨"RDREG", 0x70000000, 0xF0FFFFFF⟩

theorem opcodeRow_mem (i : Instr) : Instr.opcodeRow i ∈ opcodeMap := by
  cases i <;> simp [Instr.opcodeRow, opcodeMap]

theorem exists_opcodeRow_of_mem {r : OpcodeRow} (h : r ∈ opcodeMap) :
    ∃ i, Instr.opcodeRow i = r := by
  simp only [opcodeMap, List.mem_cons, List.not_mem_nil, or_false] at h
  obtain rfl | rfl | rfl | rfl | rfl | rfl | rfl | rfl := h
  · exact ⟨.nop, rfl⟩
  · exact ⟨.clr, rfl⟩
  · exact ⟨.setc 0 0 false, rfl⟩
  · exact ⟨.rdc 0 0, rfl⟩
  · exact ⟨.ncnt 0 0, rfl⟩
  · exact ⟨.step, rfl⟩
  · exact ⟨.run, rfl⟩
  · exact ⟨.rdreg 0, rfl⟩

theorem opcodeRow_mnemonic (i : Instr) : (Instr.opcodeRow i).mnemonic = i.mnemonic := by
  cases i <;> rfl

/-- A field of a masked word is the field of the word under the field of the mask. -/
theorem and_div_mod (x m lo n : Nat) :
    (x &&& m) / 2 ^ lo % 2 ^ n = x / 2 ^ lo % 2 ^ n &&& m / 2 ^ lo % 2 ^ n := by
  rw [Nat.and_div_two_pow, Nat.and_mod_two_pow]

/-- A mask keeps a field that it covers. -/
theorem and_field_of_ones {m lo n : Nat} (h : m / 2 ^ lo % 2 ^ n = 2 ^ n - 1) (x : Nat) :
    (x &&& m) / 2 ^ lo % 2 ^ n = x / 2 ^ lo % 2 ^ n := by
  rw [and_div_mod, h, Nat.and_two_pow_sub_one_eq_mod, Nat.mod_mod]

/-- A mask clears a field that it leaves out. -/
theorem and_field_of_zeros {m lo n : Nat} (h : m / 2 ^ lo % 2 ^ n = 0) (x : Nat) :
    (x &&& m) / 2 ^ lo % 2 ^ n = 0 := by
  rw [and_div_mod, h, Nat.and_zero]

/-- The mask of a command with no operand is the whole word. -/
theorem and_wholeMask_eq_iff {w bits : Word} {op : Nat} (h : bits.toNat = op * 2 ^ 28) :
    w &&& 0xFFFFFFFF = bits ↔ w.toNat / 2 ^ 28 = op ∧ w.toNat % 2 ^ 28 = 0 := by
  rw [show (0xFFFFFFFF : Word) = BitVec.allOnes 32 from rfl, BitVec.and_allOnes,
    ← BitVec.toNat_inj, h]
  omega

/-- The mask of RDC and NCNT: `op` and the must-be-zero bits 15:0 (R92, R98). -/
theorem and_cellMask_eq_iff {w bits : Word} {op : Nat} (h : bits.toNat = op * 2 ^ 28) :
    w &&& 0xF000FFFF = bits ↔ w.toNat / 2 ^ 28 = op ∧ w.toNat % 2 ^ 16 = 0 := by
  have hop := and_field_of_ones (m := 0xF000FFFF) (lo := 28) (n := 4) rfl w.toNat
  have hcell := and_field_of_zeros (m := 0xF000FFFF) (lo := 16) (n := 12) rfl w.toNat
  have hzero := and_field_of_ones (m := 0xF000FFFF) (lo := 0) (n := 16) rfl w.toNat
  rw [← BitVec.toNat_inj, BitVec.toNat_and, h, show (0xF000FFFF : Word).toNat = 0xF000FFFF from rfl]
  have := w.isLt
  have : w.toNat &&& 0xF000FFFF < 2 ^ 32 := Nat.and_lt_two_pow _ (by decide)
  omega

/-- The mask of SETC: `op` and the must-be-zero bits 15:1 (R92, R98). -/
theorem and_setcMask_eq_iff {w bits : Word} {op : Nat} (h : bits.toNat = op * 2 ^ 28) :
    w &&& 0xF000FFFE = bits ↔ w.toNat / 2 ^ 28 = op ∧ w.toNat / 2 % 2 ^ 15 = 0 := by
  have hop := and_field_of_ones (m := 0xF000FFFE) (lo := 28) (n := 4) rfl w.toNat
  have hcell := and_field_of_zeros (m := 0xF000FFFE) (lo := 16) (n := 12) rfl w.toNat
  have hzero := and_field_of_ones (m := 0xF000FFFE) (lo := 1) (n := 15) rfl w.toNat
  have hv := and_field_of_zeros (m := 0xF000FFFE) (lo := 0) (n := 1) rfl w.toNat
  rw [← BitVec.toNat_inj, BitVec.toNat_and, h, show (0xF000FFFE : Word).toNat = 0xF000FFFE from rfl]
  have := w.isLt
  have : w.toNat &&& 0xF000FFFE < 2 ^ 32 := Nat.and_lt_two_pow _ (by decide)
  omega

/-- The mask of RDREG: `op` and the must-be-zero bits 23:0 (R93, R98). -/
theorem and_regMask_eq_iff {w bits : Word} {op : Nat} (h : bits.toNat = op * 2 ^ 28) :
    w &&& 0xF0FFFFFF = bits ↔ w.toNat / 2 ^ 28 = op ∧ w.toNat % 2 ^ 24 = 0 := by
  have hop := and_field_of_ones (m := 0xF0FFFFFF) (lo := 28) (n := 4) rfl w.toNat
  have hreg := and_field_of_zeros (m := 0xF0FFFFFF) (lo := 24) (n := 4) rfl w.toNat
  have hzero := and_field_of_ones (m := 0xF0FFFFFF) (lo := 0) (n := 24) rfl w.toNat
  rw [← BitVec.toNat_inj, BitVec.toNat_and, h, show (0xF0FFFFFF : Word).toNat = 0xF0FFFFFF from rfl]
  have := w.isLt
  have : w.toNat &&& 0xF0FFFFFF < 2 ^ 32 := Nat.and_lt_two_pow _ (by decide)
  omega

theorem encode_under_opcodeRow (i : Instr) :
    encode i &&& (Instr.opcodeRow i).mask = (Instr.opcodeRow i).bits := by
  cases i with
  | nop | clr | step | run => rfl
  | setc row col v =>
    have he := encode_setc_toNat row col v
    have := row.isLt
    have := col.isLt
    have := v.toNat_lt
    exact (and_setcMask_eq_iff (op := 2) rfl).2 (by omega)
  | rdc row col =>
    have he := encode_rdc_toNat row col
    have := row.isLt
    have := col.isLt
    exact (and_cellMask_eq_iff (op := 3) rfl).2 (by omega)
  | ncnt row col =>
    have he := encode_ncnt_toNat row col
    have := row.isLt
    have := col.isLt
    exact (and_cellMask_eq_iff (op := 4) rfl).2 (by omega)
  | rdreg reg =>
    have he := encode_rdreg_toNat reg
    have := reg.isLt
    exact (and_regMask_eq_iff (op := 7) rfl).2 (by omega)

/-- A word under a row decodes to a command of that row. -/
theorem decode_of_under_opcodeRow {w : Word} {i : Instr}
    (h : w &&& (Instr.opcodeRow i).mask = (Instr.opcodeRow i).bits) :
    ∃ j, decode w = .ok j ∧ Instr.opcodeRow j = Instr.opcodeRow i := by
  cases i with
  | nop =>
    obtain ⟨hop, hz⟩ := (and_wholeMask_eq_iff (bits := 0) (op := 0) rfl).1 h
    exact ⟨_, (decode_nop hop).trans (if_pos hz), rfl⟩
  | clr =>
    obtain ⟨hop, hz⟩ := (and_wholeMask_eq_iff (op := 1) rfl).1 h
    exact ⟨_, (decode_clr hop).trans (if_pos hz), rfl⟩
  | setc row col v =>
    obtain ⟨hop, hz⟩ := (and_setcMask_eq_iff (op := 2) rfl).1 h
    exact ⟨_, (decode_setc hop).trans (if_pos hz), rfl⟩
  | rdc row col =>
    obtain ⟨hop, hz⟩ := (and_cellMask_eq_iff (op := 3) rfl).1 h
    exact ⟨_, (decode_rdc hop).trans (if_pos hz), rfl⟩
  | ncnt row col =>
    obtain ⟨hop, hz⟩ := (and_cellMask_eq_iff (op := 4) rfl).1 h
    exact ⟨_, (decode_ncnt hop).trans (if_pos hz), rfl⟩
  | step =>
    obtain ⟨hop, hz⟩ := (and_wholeMask_eq_iff (op := 5) rfl).1 h
    exact ⟨_, (decode_step hop).trans (if_pos hz), rfl⟩
  | run =>
    obtain ⟨hop, hz⟩ := (and_wholeMask_eq_iff (op := 6) rfl).1 h
    exact ⟨_, (decode_run hop).trans (if_pos hz), rfl⟩
  | rdreg reg =>
    obtain ⟨hop, hz⟩ := (and_regMask_eq_iff (op := 7) rfl).1 h
    exact ⟨_, (decode_rdreg hop).trans (if_pos hz), rfl⟩

/-- A word lies under a row of the opcode map exactly when it decodes to a command of that row
(R95). -/
theorem under_opcodeMap_iff {w : Word} {r : OpcodeRow} (hr : r ∈ opcodeMap) :
    w &&& r.mask = r.bits ↔ ∃ i, decode w = .ok i ∧ Instr.opcodeRow i = r := by
  constructor
  · obtain ⟨i, rfl⟩ := exists_opcodeRow_of_mem hr
    exact decode_of_under_opcodeRow
  · rintro ⟨i, hi, rfl⟩
    rw [← encode_of_decode hi]
    exact encode_under_opcodeRow i

/-! ### The legal words -/

/-- The pairs of fields that name a cell (R68). -/
def legalCells : List (CellField × CellField) :=
  ((List.range 40).map (BitVec.ofNat 6)) ×ˢ ((List.range 60).map (BitVec.ofNat 6))

/-- The numbers that name a register (R41). -/
def legalRegs : List RegField := (List.range 6).map (BitVec.ofNat 4)

/-- The commands of the mnemonic of `i` with their operands in range (R100). -/
def legalLike : Instr → List Instr
  | .nop => [.nop]
  | .clr => [.clr]
  | .setc _ _ _ => (legalCells ×ˢ [false, true]).map fun p => .setc p.1.1 p.1.2 p.2
  | .rdc _ _ => legalCells.map fun p => .rdc p.1 p.2
  | .ncnt _ _ => legalCells.map fun p => .ncnt p.1 p.2
  | .step => [.step]
  | .run => [.run]
  | .rdreg _ => legalRegs.map .rdreg

/-- The fields below `n`, each once. -/
theorem mem_map_ofNat_range {k n : Nat} (hn : n ≤ 2 ^ k) (x : BitVec k) :
    x ∈ (List.range n).map (BitVec.ofNat k) ↔ x.toNat < n := by
  simp only [List.mem_map, List.mem_range]
  constructor
  · rintro ⟨a, ha, rfl⟩
    rw [BitVec.toNat_ofNat, Nat.mod_eq_of_lt (by omega)]
    exact ha
  · exact fun hx => ⟨x.toNat, hx, by rw [BitVec.ofNat_toNat, BitVec.setWidth_eq]⟩

theorem nodup_map_ofNat_range {k n : Nat} (hn : n ≤ 2 ^ k) :
    ((List.range n).map (BitVec.ofNat k)).Nodup := by
  refine List.Nodup.map_on (fun a ha b hb h => ?_) List.nodup_range
  rw [List.mem_range] at ha hb
  have := congrArg BitVec.toNat h
  rwa [BitVec.toNat_ofNat, BitVec.toNat_ofNat, Nat.mod_eq_of_lt (by omega),
    Nat.mod_eq_of_lt (by omega)] at this

theorem mem_legalCells (row col : CellField) :
    (row, col) ∈ legalCells ↔ row.toNat < 40 ∧ col.toNat < 60 := by
  rw [legalCells, List.mem_product, mem_map_ofNat_range (by decide),
    mem_map_ofNat_range (by decide)]

theorem nodup_legalCells : legalCells.Nodup :=
  (nodup_map_ofNat_range (by decide)).product (nodup_map_ofNat_range (by decide))

theorem length_legalCells : legalCells.length = 2400 := by
  simp [legalCells, List.length_product]

theorem mem_legalRegs (reg : RegField) : reg ∈ legalRegs ↔ reg.toNat < 6 :=
  mem_map_ofNat_range (by decide) reg

theorem nodup_legalRegs : legalRegs.Nodup := nodup_map_ofNat_range (by decide)

theorem nodup_legalLike (i : Instr) : (legalLike i).Nodup := by
  cases i with
  | nop | clr | step | run => exact List.nodup_singleton _
  | setc row col v =>
    exact (nodup_legalCells.product (by decide)).map fun p q h => by grind
  | rdc row col => exact nodup_legalCells.map fun p q h => by grind
  | ncnt row col => exact nodup_legalCells.map fun p q h => by grind
  | rdreg reg => exact nodup_legalRegs.map fun p q h => by grind

theorem cellInRange_iff (row col : CellField) :
    cellInRange row col = true ↔ row.toNat < 40 ∧ col.toNat < 60 := by
  simp [cellInRange]

theorem regInRange_iff (reg : RegField) : regInRange reg = true ↔ reg.toNat < 6 := by
  simp [regInRange]

/-- The commands listed for `i` are the commands in range with its mnemonic. -/
theorem mem_legalLike (i j : Instr) :
    j ∈ legalLike i ↔ j.wellFormed = true ∧ j.mnemonic = i.mnemonic := by
  cases i with
  | nop | clr | step | run => cases j <;> simp [legalLike, Instr.wellFormed, Instr.mnemonic]
  | setc | rdc | ncnt =>
    cases j <;>
      simp [legalLike, Instr.wellFormed, Instr.mnemonic, cellInRange_iff, mem_legalCells]
  | rdreg =>
    cases j <;> simp [legalLike, Instr.wellFormed, Instr.mnemonic, regInRange_iff, mem_legalRegs]

/-- One command of each mnemonic, operands 0. -/
def mnemonicSamples : List Instr :=
  [.nop, .clr, .step, .run, .setc 0 0 false, .rdc 0 0, .ncnt 0 0, .rdreg 0]

/-- Every command in range (R100). -/
def legalCommands : List Instr := mnemonicSamples.flatMap legalLike

theorem mem_legalCommands (j : Instr) : j ∈ legalCommands ↔ j.wellFormed = true := by
  have hsample : ∃ i ∈ mnemonicSamples, j.mnemonic = i.mnemonic := by
    cases j <;> simp [mnemonicSamples, Instr.mnemonic]
  simp only [legalCommands, List.mem_flatMap, mem_legalLike]
  constructor
  · rintro ⟨i, -, hj, -⟩
    exact hj
  · intro hj
    obtain ⟨i, hi, hm⟩ := hsample
    exact ⟨i, hi, hj, hm⟩

theorem nodup_legalCommands : legalCommands.Nodup := by
  have hnames : (mnemonicSamples.map Instr.mnemonic).Nodup := by decide
  refine List.nodup_flatMap.2 ⟨fun i _ => nodup_legalLike i, ?_⟩
  refine (List.pairwise_map.1 hnames).imp fun hne j hi hk => hne ?_
  rw [← ((mem_legalLike _ j).1 hi).2, ((mem_legalLike _ j).1 hk).2]

theorem length_legalLike_setc : (legalLike (.setc 0 0 false)).length = 4800 := by
  rw [legalLike, List.length_map, List.length_product, length_legalCells]
  rfl

theorem length_legalLike_rdc : (legalLike (.rdc 0 0)).length = 2400 := by
  rw [legalLike, List.length_map, length_legalCells]

theorem length_legalLike_ncnt : (legalLike (.ncnt 0 0)).length = 2400 := by
  rw [legalLike, List.length_map, length_legalCells]

theorem length_legalCommands : legalCommands.length = 9610 := by
  simp only [legalCommands, mnemonicSamples, List.length_flatMap, List.map_cons, List.map_nil,
    List.sum_cons, List.sum_nil, length_legalLike_setc, length_legalLike_rdc,
    length_legalLike_ncnt]
  rfl

/-- The words of a list of commands, each once, are the words that decode to one of them. -/
theorem words_of_commands {l : List Instr} (hl : l.Nodup) :
    (l.map encode).Nodup ∧ (l.map encode).length = l.length ∧
      ∀ w, w ∈ l.map encode ↔ ∃ i, decode w = .ok i ∧ i ∈ l := by
  refine ⟨hl.map encode_injective, List.length_map _, fun w => ?_⟩
  simp only [List.mem_map, decode_eq_ok_iff, and_comm]

/-- The count of R100 for the mnemonic of a command. -/
theorem legalWords_like {i : Instr} {n : Nat} (hn : (legalLike i).length = n) :
    ∃ l : List Word, l.Nodup ∧ l.length = n ∧
      ∀ w, w ∈ l ↔ ∃ j : Instr, decode w = .ok j ∧ j.wellFormed = true ∧
        j.mnemonic = i.mnemonic := by
  obtain ⟨hnodup, hlen, hmem⟩ := words_of_commands (nodup_legalLike i)
  exact ⟨_, hnodup, hlen.trans hn, by simpa only [mem_legalLike] using hmem⟩

/-- A command with an operand out of range raises an error (R99). -/
theorem exec_of_not_wellFormed {i : Instr} (h : ¬ i.wellFormed = true) (s : State) :
    ∃ e, exec i s = .next (raise e s) := by
  cases i with
  | nop | clr | step | run => exact absurd rfl h
  | setc row col v =>
    rw [Instr.wellFormed, cellInRange_iff] at h
    exact ⟨_, (exec_cell_outside h v s).1⟩
  | rdc row col =>
    rw [Instr.wellFormed, cellInRange_iff] at h
    exact ⟨_, (exec_cell_outside h true s).2.1⟩
  | ncnt row col =>
    rw [Instr.wellFormed, cellInRange_iff] at h
    exact ⟨_, (exec_cell_outside h true s).2.2⟩
  | rdreg reg =>
    rw [Instr.wellFormed, regInRange_iff, Nat.not_lt] at h
    exact ⟨_, exec_rdreg_outside ((regOperand_eq_none_iff reg).2 h) s⟩

/-! ### What one accepted word does -/

/-- An accepted word that decodes runs its command on the rest of the host's list. -/
theorem step_of_decode {s : State} {w : Word} {rest : List HostEvent} {i : Instr}
    (hacc : Accepts s w rest) (hd : decode w = .ok i) :
    step s = exec i { s with commands := rest } :=
  stepRunsDecodedCommand s w rest i hacc hd

theorem step_of_illegal {s : State} {w : Word} {rest : List HostEvent} (hacc : Accepts s w rest)
    (h : illegalWord w = true) : step s = .next (answered s rest 0x80000001) :=
  (step_of_accepts hacc).trans (acceptWord_of_error (decode_of_illegal h) _)

/-- The three cell commands on a cell outside the grid (R99). -/
theorem step_of_badAddr {s : State} {w : Word} {rest : List HostEvent} (hacc : Accepts s w rest)
    (hcell : 40 ≤ w.toNat / 2 ^ 22 % 2 ^ 6 ∨ 60 ≤ w.toNat / 2 ^ 16 % 2 ^ 6)
    (h : decode w = .ok (.setc (rowField w) (colField w) (vField w)) ∨
      decode w = .ok (.rdc (rowField w) (colField w)) ∨
      decode w = .ok (.ncnt (rowField w) (colField w))) :
    step s = .next (answered s rest 0x80000002) := by
  have hout : ¬ ((rowField w).toNat < 40 ∧ (colField w).toNat < 60) := by
    rw [rowField_toNat, colField_toNat]
    omega
  obtain ⟨hsetc, hrdc, hncnt⟩ := exec_cell_outside hout (vField w) { s with commands := rest }
  rcases h with hd | hd | hd
  · exact (step_of_decode hacc hd).trans hsetc
  · exact (step_of_decode hacc hd).trans hrdc
  · exact (step_of_decode hacc hd).trans hncnt

/-- RDREG with a number that names no register (R99). -/
theorem step_of_badReg {s : State} {w : Word} {rest : List HostEvent} (hacc : Accepts s w rest)
    (hnum : 6 ≤ w.toNat / 2 ^ 24 % 2 ^ 4) (h : decode w = .ok (.rdreg (regField w))) :
    step s = .next (answered s rest 0x80000003) := by
  rw [← regField_toNat] at hnum
  exact (step_of_decode hacc h).trans
    (exec_rdreg_outside ((regOperand_eq_none_iff _).2 hnum) { s with commands := rest })

theorem rowField_eq_mod (w : Word) : rowField w = BitVec.ofNat 6 (w.toNat / 2 ^ 22 % 2 ^ 6) := by
  rw [← rowField_toNat, BitVec.ofNat_toNat, BitVec.setWidth_eq]

theorem colField_eq_mod (w : Word) : colField w = BitVec.ofNat 6 (w.toNat / 2 ^ 16 % 2 ^ 6) := by
  rw [← colField_toNat, BitVec.ofNat_toNat, BitVec.setWidth_eq]

theorem regField_eq_mod (w : Word) : regField w = BitVec.ofNat 4 (w.toNat / 2 ^ 24 % 2 ^ 4) := by
  rw [← regField_toNat, BitVec.ofNat_toNat, BitVec.setWidth_eq]

/-- The fields of a word name a cell when their numbers do. -/
theorem cellInRange_fields {w : Word}
    (h : ¬ (40 ≤ w.toNat / 2 ^ 22 % 2 ^ 6 ∨ 60 ≤ w.toNat / 2 ^ 16 % 2 ^ 6)) :
    cellInRange (rowField w) (colField w) = true := by
  rw [cellInRange_iff, rowField_toNat, colField_toNat]
  omega

theorem regInRange_field {w : Word} (h : ¬ 6 ≤ w.toNat / 2 ^ 24 % 2 ^ 4) :
    regInRange (regField w) = true := by
  rw [regInRange_iff, regField_toNat]
  omega

/-- The checks of R96 that raise ILLEGAL, one for each format (R97, R98). -/
theorem illegalWord_of_bare {w : Word} (hop : w.toNat / 2 ^ 28 ∈ [0, 1, 5, 6])
    (hz : w.toNat % 2 ^ 28 ≠ 0) : illegalWord w = true := by
  simp only [List.mem_cons, List.not_mem_nil, or_false] at hop
  rw [illegalWord_eq, if_neg (by omega), if_pos hop, decide_eq_true hz]

theorem illegalWord_of_setc {w : Word} (hop : w.toNat / 2 ^ 28 = 2)
    (hz : w.toNat / 2 % 2 ^ 15 ≠ 0) : illegalWord w = true := by
  rw [illegalWord_eq, hop]
  exact decide_eq_true hz

theorem illegalWord_of_cell {w : Word} (hop : w.toNat / 2 ^ 28 ∈ [3, 4])
    (hz : w.toNat % 2 ^ 16 ≠ 0) : illegalWord w = true := by
  simp only [List.mem_cons, List.not_mem_nil, or_false] at hop
  rw [illegalWord_eq, if_neg (by omega), if_neg (by omega), if_neg (by omega), if_pos hop,
    decide_eq_true hz]

theorem illegalWord_of_rdreg {w : Word} (hop : w.toNat / 2 ^ 28 = 7)
    (hz : w.toNat % 2 ^ 24 ≠ 0) : illegalWord w = true := by
  rw [illegalWord_eq, hop]
  exact decide_eq_true hz

/-! ### The obligations of `30_encoding.md`: command words -/

/-- Settles O1, from `decode_encode` and `encode_of_decode`. -/
theorem decodeEncodeInverse : Obligations.DecodeEncodeInverse := by
  unfold Obligations.DecodeEncodeInverse
  exact ⟨rfl, rfl, rfl, rfl, encode_setc_toNat, encode_rdc_toNat, encode_ncnt_toNat,
    encode_rdreg_toNat, decode_encode, fun _ _ => encode_of_decode⟩

/-- Settles O2: the row of a command, and `under_opcodeMap_iff`. -/
theorem opcodeMapDecides : Obligations.OpcodeMapDecides := by
  unfold Obligations.OpcodeMapDecides
  refine ⟨rfl, fun w m => ⟨?_, ?_⟩, fun w r q hr hq hwr hwq => ?_, by decide, by decide,
    encode (.rdreg 6), _, decode_encode _, by decide⟩
  · rintro ⟨i, hi, rfl⟩
    have hrow := opcodeRow_mem i
    exact ⟨_, hrow, opcodeRow_mnemonic i, (under_opcodeMap_iff hrow).2 ⟨i, hi, rfl⟩⟩
  · rintro ⟨r, hr, rfl, hw⟩
    obtain ⟨i, hi, rfl⟩ := (under_opcodeMap_iff hr).1 hw
    exact ⟨i, hi, (opcodeRow_mnemonic i).symm⟩
  · obtain ⟨i, hi, rfl⟩ := (under_opcodeMap_iff hr).1 hwr
    obtain ⟨j, hj, rfl⟩ := (under_opcodeMap_iff hq).1 hwq
    rw [Except.ok.inj (hi.symm.trans hj)]

/-- Settles O3: the words of the commands in range, and the errors of every other word. -/
theorem legalWordCount : Obligations.LegalWordCount := by
  unfold Obligations.LegalWordCount
  refine ⟨fun m n h => ?_, ?_, fun w s h => ?_⟩
  · simp only [List.mem_cons, List.not_mem_nil, or_false, Prod.mk.injEq] at h
    obtain ⟨rfl, rfl⟩ | ⟨rfl, rfl⟩ | ⟨rfl, rfl⟩ | ⟨rfl, rfl⟩ | ⟨rfl, rfl⟩ | ⟨rfl, rfl⟩ |
      ⟨rfl, rfl⟩ | ⟨rfl, rfl⟩ := h
    · exact legalWords_like (i := .nop) rfl
    · exact legalWords_like (i := .clr) rfl
    · exact legalWords_like (i := .step) rfl
    · exact legalWords_like (i := .run) rfl
    · exact legalWords_like length_legalLike_setc
    · exact legalWords_like length_legalLike_rdc
    · exact legalWords_like length_legalLike_ncnt
    · exact legalWords_like (i := .rdreg 0) rfl
  · obtain ⟨hnodup, hlen, hmem⟩ := words_of_commands nodup_legalCommands
    exact ⟨_, hnodup, hlen.trans length_legalCommands, by simpa only [mem_legalCommands] using hmem⟩
  · cases hd : decode w with
    | error e => exact ⟨e, acceptWord_of_error hd s⟩
    | ok i =>
      obtain ⟨e, he⟩ := exec_of_not_wellFormed (fun hi => h ⟨i, hd, hi⟩) s
      exact ⟨e, (acceptWord_of_decode hd s).trans he⟩

/-- Settles O4: the checks of R96 one after the other, and `decode` by opcode where none
is met. -/
theorem acceptedWordOutcome : Obligations.AcceptedWordOutcome := by
  unfold Obligations.AcceptedWordOutcome
  intro s w rest hacc
  dsimp only
  split_ifs with hres hbare hsetc hcell hreg haddr hnum
  · exact step_of_illegal hacc (by rw [illegalWord_eq, if_pos hres])
  · exact step_of_illegal hacc (illegalWord_of_bare hbare.1 hbare.2)
  · exact step_of_illegal hacc (illegalWord_of_setc hsetc.1 hsetc.2)
  · exact step_of_illegal hacc (illegalWord_of_cell hcell.1 hcell.2)
  · exact step_of_illegal hacc (illegalWord_of_rdreg hreg.1 hreg.2)
  · obtain ⟨hop, hout⟩ := haddr
    rw [not_and_not_right] at hsetc hcell
    obtain op | op | op : w.toNat / 2 ^ 28 = 2 ∨ w.toNat / 2 ^ 28 = 3 ∨ w.toNat / 2 ^ 28 = 4 := by
      simpa using hop
    · exact step_of_badAddr hacc hout (.inl ((decode_setc op).trans (if_pos (hsetc op))))
    · have hz := hcell (by rw [op]; decide)
      exact step_of_badAddr hacc hout (.inr (.inl ((decode_rdc op).trans (if_pos hz))))
    · have hz := hcell (by rw [op]; decide)
      exact step_of_badAddr hacc hout (.inr (.inr ((decode_ncnt op).trans (if_pos hz))))
  · obtain ⟨op, hout⟩ := hnum
    rw [not_and_not_right] at hreg
    exact step_of_badReg hacc hout ((decode_rdreg op).trans (if_pos (hreg op)))
  · rw [not_and_not_right] at hbare hsetc hcell hreg
    rw [not_and] at haddr hnum
    rcases op_cases w with op | op | op | op | op | op | op | op | op
    · exact absurd op hres
    · have hz := hbare (by rw [op]; decide)
      simp only [op]
      exact ⟨_, rfl, step_of_decode hacc ((decode_nop op).trans (if_pos hz)), rfl⟩
    · have hz := hbare (by rw [op]; decide)
      simp only [op]
      exact ⟨_, rfl, step_of_decode hacc ((decode_clr op).trans (if_pos hz)), rfl⟩
    · have hin := cellInRange_fields (haddr (by rw [op]; decide))
      simp only [op, ← rowField_eq_mod, ← colField_eq_mod, ← vField_eq]
      have hz := hsetc op
      exact ⟨.setc _ _ _, hin, step_of_decode hacc ((decode_setc op).trans (if_pos hz)), rfl⟩
    · have hz := hcell (by rw [op]; decide)
      have hin := cellInRange_fields (haddr (by rw [op]; decide))
      simp only [op, ← rowField_eq_mod, ← colField_eq_mod]
      exact ⟨.rdc _ _, hin, step_of_decode hacc ((decode_rdc op).trans (if_pos hz)), rfl⟩
    · have hz := hcell (by rw [op]; decide)
      have hin := cellInRange_fields (haddr (by rw [op]; decide))
      simp only [op, ← rowField_eq_mod, ← colField_eq_mod]
      exact ⟨.ncnt _ _, hin, step_of_decode hacc ((decode_ncnt op).trans (if_pos hz)), rfl⟩
    · have hz := hbare (by rw [op]; decide)
      simp only [op]
      exact ⟨_, rfl, step_of_decode hacc ((decode_step op).trans (if_pos hz)), rfl⟩
    · have hz := hbare (by rw [op]; decide)
      simp only [op]
      exact ⟨_, rfl, step_of_decode hacc ((decode_run op).trans (if_pos hz)), rfl⟩
    · have hin := regInRange_field (hnum op)
      simp only [op, ← regField_eq_mod]
      exact ⟨.rdreg _, hin, step_of_decode hacc ((decode_rdreg op).trans (if_pos (hreg op))), rfl⟩

end Sys2Proof.Machine
end

section
/-! PROOF. The command port: one response for each word, a machine that never stops, and the
handshake clock by clock (`30_encoding.md` R105 to R111). -/

namespace Sys2Proof.Machine

open Sys2Proof.Safety

/-! ### Responses -/

theorem okWord_toNat (v : Payload) : (okWord v).toNat = v.toNat :=
  BitVec.toNat_setWidth_of_le (by decide)

theorem errorWord_toNat (e : CommandError) :
    (errorWord e).toNat = 0x80000000 + (errorCode e).toNat := by
  cases e <;> rfl

/-- A field of at most 30 bits keeps its bound as a response value (R108). -/
theorem toNat_setWidth_payload_lt {n : Nat} (hn : n ≤ 30) (x : BitVec n) :
    (x.setWidth 31 : Payload).toNat < 2 ^ 30 := by
  rw [BitVec.toNat_setWidth_of_le (by omega)]
  exact x.isLt.trans_le (Nat.pow_le_pow_right (by decide) hn)

/-- A register fits in 30 bits: the widest is CONFIG (R33, R41). -/
theorem regValue_lt (n : RegName) (s : State) : (regValue n s).toNat < 2 ^ 30 := by
  cases n with
  | config =>
    change Config.configValue.toNat < 2 ^ 30
    decide
  | status => exact toNat_setWidth_payload_lt (by decide) (statusValue s)
  | gen => exact toNat_setWidth_payload_lt (by decide) s.gen
  | score => exact toNat_setWidth_payload_lt (by decide) s.score
  | hcnt => exact toNat_setWidth_payload_lt (by decide) s.hcnt
  | pop =>
    have := pop_le s.grid
    rw [regValue, BitVec.toNat_ofNat]
    omega

theorem newSeed_commands (g : Grid) (s : State) :
    (markSeeded (writeGrid g s)).commands = s.commands := rfl

theorem newSeed_responses (g : Grid) (s : State) :
    (markSeeded (writeGrid g s)).responses = s.responses := rfl

/-- A command raises an error, or responds with a value that fits in 30 bits once it has done its
work on the block, the port left alone (R108). -/
theorem exec_responds (i : Instr) (s : State) :
    (∃ e, exec i s = .next (raise e s)) ∨
      ∃ v u, exec i s = .next (respond v u) ∧ v.toNat < 2 ^ 30 ∧ u.commands = s.commands ∧
        u.responses = s.responses := by
  have hzero : (0 : Payload).toNat < 2 ^ 30 := by decide
  by_cases hi : i.wellFormed = true
  · refine .inr ?_
    cases i with
    | nop => exact ⟨_, _, exec_nop s, hzero, rfl, rfl⟩
    | clr => exact ⟨_, _, exec_clr s, hzero, newSeed_commands _ s, newSeed_responses _ s⟩
    | step => exact ⟨_, _, exec_step s, hzero, newSeed_commands _ s, newSeed_responses _ s⟩
    | run =>
      refine ⟨0, runLoop 1001 (runInit s), exec_run s, hzero, ?_, ?_⟩
      · rw [runLoop_commands, runInit_commands]
      · rw [runLoop_responses, runInit_responses]
    | setc row col v =>
      exact ⟨_, _, exec_setc ((cellInRange_iff row col).1 hi) v s, hzero, newSeed_commands _ s,
        newSeed_responses _ s⟩
    | rdc row col =>
      refine ⟨_, _, exec_rdc ((cellInRange_iff row col).1 hi) s, ?_, rfl, rfl⟩
      have := toNat_bool_le (s.grid.cell row.toNat col.toNat)
      rw [BitVec.toNat_ofNat]
      omega
    | ncnt row col =>
      refine ⟨_, _, exec_ncnt ((cellInRange_iff row col).1 hi) s, ?_, rfl, rfl⟩
      have := nCount_le s.grid row.toNat col.toNat
      rw [BitVec.toNat_ofNat]
      omega
    | rdreg reg =>
      have hreg := (regInRange_iff reg).1 hi
      cases hn : regOperand reg with
      | none => exact absurd ((regOperand_eq_none_iff reg).1 hn) (by omega)
      | some n => exact ⟨_, _, exec_rdreg hn s, regValue_lt n s, rfl, rfl⟩
  · exact .inl (exec_of_not_wellFormed hi s)

/-- The same of a word: ILLEGAL, or what its command does. -/
theorem acceptWord_responds (w : Word) (s : State) :
    (∃ e, acceptWord w s = .next (raise e s)) ∨
      ∃ v u, acceptWord w s = .next (respond v u) ∧ v.toNat < 2 ^ 30 ∧ u.commands = s.commands ∧
        u.responses = s.responses := by
  cases hd : decode w with
  | error e => exact .inl ⟨e, acceptWord_of_error hd s⟩
  | ok i =>
    rw [acceptWord_of_decode hd]
    exact exec_responds i s

/-- An accepted word is answered with one response, in any state (R108). -/
theorem acceptWord_next (w : Word) (s : State) :
    ∃ t r, acceptWord w s = .next t ∧ t.commands = s.commands ∧
      t.responses = s.responses ++ [r] ∧
      (r = 0x80000001 ∨ r = 0x80000002 ∨ r = 0x80000003 ∨ r.toNat < 2 ^ 30) := by
  obtain ⟨e, h⟩ | ⟨v, u, h, hv, hcmd, hresp⟩ := acceptWord_responds w s
  · refine ⟨_, _, h, rfl, rfl, ?_⟩
    cases e with
    | illegal => exact .inl rfl
    | badAddr => exact .inr (.inl rfl)
    | badReg => exact .inr (.inr (.inl rfl))
  · refine ⟨_, okWord v, h, hcmd, by rw [respond_responses, hresp], ?_⟩
    rw [okWord_toNat]
    exact .inr (.inr (.inr hv))

/-! ### The machine never stops -/

theorem runBounds_of_runInv {g0 : Grid} {s : State} (h : RunInv g0 s) : RunBounds s := by
  have hrec := runRecord_of_runInv h
  have hsum := scoreSum_le g0 (s.gen.toNat + 1)
  refine ⟨hrec.gen_le, hrec.fill, hrec.stored, ?_⟩
  rw [hrec.score]
  omega

theorem sequencerStep_of_not_runBounds {s : State} (h : ¬ RunBounds s) :
    sequencerStep s = .fault .brokenRun := by
  rw [sequencerStep, if_neg fun hm => h ((midRun_iff s).1 hm)]

/-- A step answers a next state, except that of a run out of its bounds (R105, R240, log
entry 5). -/
theorem step_next_or_broken (s : State) :
    (∃ t, step s = .next t) ∨
      (Iterating s ∧ ¬ RunBounds s ∧ step s = .fault .brokenRun) := by
  rcases step_cases s with ⟨-, -, e⟩ | ⟨rest, -, e⟩ | ⟨hstep, hrst, e⟩ | ⟨w, rest, -, -, e⟩
  · exact .inl ⟨_, e⟩
  · exact .inl ⟨_, e⟩
  · by_cases hb : RunBounds s
    · exact .inl ⟨_, e.trans (sequencerStep_of_runBounds hb)⟩
    · exact .inr ⟨⟨hstep, hrst⟩, hb, e.trans (sequencerStep_of_not_runBounds hb)⟩
  · obtain ⟨t, -, h, -⟩ := acceptWord_next w { s with commands := rest }
    exact .inl ⟨t, e.trans h⟩

/-! ### An edge of the port, by its phase -/

theorem clockEdge_ready {i : Pins} {p : PortState} (hi : i.rst = false) (h : p.phase = .ready) :
    clockEdge i p = if i.cmdValid then
        { block := atAcceptance i.cmdData p.block
          phase := .working i.cmdData (Config.latency p.accepted i.cmdData p.block.grid.flat)
          rsp := none
          accepted := p.accepted + 1 }
      else { p with rsp := none } := by
  simp only [clockEdge, hi, h, Bool.false_eq_true, if_false]

theorem clockEdge_working {i : Pins} {p : PortState} {w : Word} {n : Nat} (hi : i.rst = false)
    (h : p.phase = .working w (n + 1)) :
    clockEdge i p = { p with phase := .working w n, rsp := none } := by
  simp only [clockEdge, hi, h, Bool.false_eq_true, if_false]

/-- The port once the command `w` in progress has its effect and its response is presented. -/
def finished (w : Word) (p : PortState) : PortState :=
  { p with
    block := wholeEffect w p.block
    phase := afterResponse (Config.recovery p.accepted w p.block.grid.flat)
    rsp := (wholeEffect w p.block).responses.getLast? }

theorem clockEdge_finishes {i : Pins} {p : PortState} {w : Word} (hi : i.rst = false)
    (h : p.phase = .working w 0) : clockEdge i p = finished w p := by
  simp only [clockEdge, hi, h, Bool.false_eq_true, if_false, finished]

theorem clockEdge_recovering {i : Pins} {p : PortState} {n : Nat} (hi : i.rst = false)
    (h : p.phase = .recovering n) :
    clockEdge i p = { p with phase := afterResponse n, rsp := none } := by
  simp only [clockEdge, hi, h, Bool.false_eq_true, if_false]

theorem cmdReady_false_iff (p : PortState) : cmdReady false p = true ↔ p.phase = .ready := by
  simp [cmdReady]

theorem afterResponse_ready_iff (m : Nat) : afterResponse m = .ready ↔ m = 0 := by
  cases m <;> simp [afterResponse]

/-- After a response no edge brings another before a word is accepted. -/
theorem clockEdge_afterResponse_rsp {p : PortState} {m : Nat} (h : p.phase = afterResponse m)
    (i : Pins) : (clockEdge i p).rsp = none := by
  cases hi : i.rst with
  | true => simp only [clockEdge, hi, if_true]
  | false =>
    cases m with
    | zero =>
      rw [clockEdge_ready hi h]
      split_ifs <;> rfl
    | succ m => rw [clockEdge_recovering hi h]

/-! ### Sequences of edges -/

theorem clockEdges_working {pins : List Pins} {p : PortState} {w : Word} {n : Nat}
    (hpins : ∀ i ∈ pins, i.rst = false) (h : p.phase = .working w n) (hrsp : p.rsp = none)
    (hlen : pins.length ≤ n) :
    clockEdges pins p = { p with phase := .working w (n - pins.length) } := by
  induction pins generalizing p n with
  | nil => rw [List.length_nil, Nat.sub_zero, ← h]; rfl
  | cons i is ih =>
    obtain ⟨hi, his⟩ := List.forall_mem_cons.1 hpins
    cases n with
    | zero => simp at hlen
    | succ n =>
      rw [List.length_cons] at hlen ⊢
      rw [clockEdges, clockEdge_working hi h, ih his rfl rfl (by omega), Nat.add_sub_add_right,
        ← hrsp]

/-- The edge after the free clocks of a command is the one of its response. -/
theorem clockEdges_finishes {pins : List Pins} {p : PortState} {w : Word} {n : Nat}
    (hpins : ∀ i ∈ pins, i.rst = false) (h : p.phase = .working w n)
    (hlen : pins.length = n + 1) : clockEdges pins p = finished w p := by
  induction n generalizing pins p with
  | zero =>
    obtain ⟨i, rfl⟩ := List.length_eq_one_iff.1 hlen
    exact clockEdge_finishes (hpins i (List.mem_singleton_self i)) h
  | succ n ih =>
    cases pins with
    | nil => simp at hlen
    | cons i is =>
      obtain ⟨hi, his⟩ := List.forall_mem_cons.1 hpins
      rw [clockEdges, clockEdge_working hi h, ih his rfl (by simpa using hlen)]
      rfl

/-- Until `cmd_ready` is 1 again the edges count the recovery down and leave the block. -/
theorem clockEdges_afterResponse {pins : List Pins} {p : PortState} {m : Nat}
    (hpins : ∀ i ∈ pins, i.rst = false) (h : p.phase = afterResponse m) (hlen : pins.length ≤ m) :
    (clockEdges pins p).block = p.block ∧
      (clockEdges pins p).phase = afterResponse (m - pins.length) := by
  induction pins generalizing p m with
  | nil => exact ⟨rfl, h⟩
  | cons i is ih =>
    obtain ⟨hi, his⟩ := List.forall_mem_cons.1 hpins
    cases m with
    | zero => simp at hlen
    | succ m =>
      rw [List.length_cons] at hlen ⊢
      rw [clockEdges, clockEdge_recovering hi h, Nat.add_sub_add_right]
      exact ih his rfl (by omega)

/-! ### Acceptance -/

theorem runInit_runInit (s : State) : runInit (runInit s) = runInit s := rfl

/-- Acceptance is RunInit for RUN and nothing for another word (R172, R281). -/
theorem atAcceptance_cases (w : Word) (s : State) :
    (decode w = .ok .run ∧ atAcceptance w s = runInit s) ∨
      (decode w ≠ .ok .run ∧ atAcceptance w s = s) := by
  by_cases h : decode w = .ok .run
  · exact .inl ⟨h, by simp only [atAcceptance, h]⟩
  · refine .inr ⟨h, ?_⟩
    unfold atAcceptance
    split
    · contradiction
    · rfl

theorem atAcceptance_grid (w : Word) (s : State) : (atAcceptance w s).grid = s.grid := by
  rcases atAcceptance_cases w s with ⟨-, e⟩ | ⟨-, e⟩
  · rw [e, runInit_grid]
  · rw [e]

theorem atAcceptance_responses (w : Word) (s : State) :
    (atAcceptance w s).responses = s.responses := by
  rcases atAcceptance_cases w s with ⟨-, e⟩ | ⟨-, e⟩
  · rw [e, runInit_responses]
  · rw [e]

/-- A RUN raises `busy` at its acceptance (R281). -/
theorem busy_atAcceptance_run {w : Word} (h : decode w = .ok .run) (s : State) :
    (atAcceptance w s).busy = true := by
  simp [atAcceptance, h, State.busy]

/-- The RunInit of acceptance changes nothing of the effect of the word. -/
theorem acceptWord_atAcceptance (w : Word) (s : State) :
    acceptWord w (atAcceptance w s) = acceptWord w s := by
  rcases atAcceptance_cases w s with ⟨hrun, e⟩ | ⟨-, e⟩
  · rw [e, acceptWord_of_decode hrun, acceptWord_of_decode hrun, exec_run, exec_run,
      runInit_runInit]
  · rw [e]

theorem wholeEffect_of_next {w : Word} {s t : State} (h : acceptWord w s = .next t) :
    wholeEffect w s = t := by
  simp only [wholeEffect, h]

/-- The port right after the edge that accepts `w`. -/
def acceptedPort (w : Word) (p : PortState) : PortState :=
  { block := atAcceptance w p.block
    phase := .working w (Config.latency p.accepted w p.block.grid.flat)
    rsp := none
    accepted := p.accepted + 1 }

theorem clockEdge_accepts {w : Word} {p : PortState} (h : p.phase = .ready) :
    clockEdge ⟨false, true, w⟩ p = acceptedPort w p :=
  (clockEdge_ready rfl h).trans (if_pos rfl)

/-- What the edge of the response leaves of an accepted word. -/
theorem finished_acceptedPort {w : Word} {p : PortState} {t : State} {r : Word}
    (ht : acceptWord w p.block = .next t) (hr : t.responses = p.block.responses ++ [r]) :
    (finished w (acceptedPort w p)).block = t ∧
      (finished w (acceptedPort w p)).phase =
        afterResponse (Config.recovery (p.accepted + 1) w p.block.grid.flat) ∧
      (finished w (acceptedPort w p)).rsp = some r := by
  have heffect : wholeEffect w (atAcceptance w p.block) = t :=
    wholeEffect_of_next ((acceptWord_atAcceptance w p.block).trans ht)
  simp [finished, acceptedPort, heffect, hr, atAcceptance_grid]

/-! ### The obligations of `30_encoding.md`: the port -/

/-- Settles O7, from `acceptWord_next`; the response words as numbers. -/
theorem oneResponsePerCommand : Obligations.OneResponsePerCommand := by
  unfold Obligations.OneResponsePerCommand
  refine ⟨fun s w rest hacc => ?_, fun v s => ?_, fun e s => ?_⟩
  · obtain ⟨t, r, h, hcmd, hresp, hr⟩ := acceptWord_next w { s with commands := rest }
    exact ⟨t, r, (step_of_accepts hacc).trans h, hcmd, hresp, hr⟩
  · rw [← okWord_toNat, BitVec.ofNat_toNat, BitVec.setWidth_eq]
    rfl
  · rw [← errorWord_toNat, BitVec.ofNat_toNat, BitVec.setWidth_eq]
    rfl

/-- Settles O37: by `step_next_or_broken`, and a run keeps its bounds. -/
theorem invariantStatesNeverStop : Obligations.InvariantStatesNeverStop := by
  unfold Obligations.InvariantStatesNeverStop
  refine ⟨fun s hinv => ?_, fun s => ⟨fun h => ?_, fun ⟨hiter, hb⟩ => ?_⟩, fun s r h => ?_⟩
  · obtain ht | ⟨⟨hstep, -⟩, hb, -⟩ := step_next_or_broken s
    · exact ht
    · obtain ⟨hready, -⟩ | ⟨g0, hrun⟩ := hinv
      · exact absurd hstep hready
      · exact absurd (runBounds_of_runInv hrun) hb
  · obtain ⟨t, ht⟩ | ⟨hiter, hb, -⟩ := step_next_or_broken s
    · exact nomatch ht.symm.trans h
    · exact ⟨hiter, hb⟩
  · exact (step_of_iterating hiter).trans (sequencerStep_of_not_runBounds hb)
  · obtain ⟨t, ht⟩ | ⟨-, -, ht⟩ := step_next_or_broken s
    · exact nomatch ht.symm.trans h
    · exact nomatch ht.symm.trans h

/-- Settles O50: only a ready port reads the command pins. -/
theorem unreadyPortIgnoresWords : Obligations.UnreadyPortIgnoresWords := by
  unfold Obligations.UnreadyPortIgnoresWords
  intro i j p hi hj hready
  cases hp : p.phase with
  | ready => simp [(cmdReady_false_iff p).2 hp] at hready
  | working w n =>
    cases n with
    | zero => rw [clockEdge_finishes hi hp, clockEdge_finishes hj hp]
    | succ n => rw [clockEdge_working hi hp, clockEdge_working hj hp]
  | recovering n => rw [clockEdge_recovering hi hp, clockEdge_recovering hj hp]

/-- Settles O51: the clocks of `Config.latency`, the edge of the response, the clocks of
`Config.recovery`. -/
theorem acceptedWordIsAnswered : Obligations.AcceptedWordIsAnswered := by
  unfold Obligations.AcceptedWordIsAnswered
  intro p w hready
  have hphase := (cmdReady_false_iff p).1 hready
  refine ⟨Config.latency p.accepted w p.block.grid.flat,
    Config.recovery (p.accepted + 1) w p.block.grid.flat, fun pins hpins => ?_⟩
  dsimp only
  rw [clockEdges, clockEdge_accepts hphase]
  refine ⟨fun hlen => ?_, fun hlen => ?_⟩
  · obtain ⟨t, r, ht, -, hr, -⟩ := acceptWord_next w p.block
    obtain ⟨hblock, hafter, hrsp⟩ := finished_acceptedPort ht hr
    rw [clockEdges_finishes hpins (p := acceptedPort w p) rfl hlen]
    refine ⟨t, r, ht, hr, hblock, hrsp, clockEdge_afterResponse_rsp hafter, fun more hmore hm => ?_⟩
    obtain ⟨hkeep, hend⟩ := clockEdges_afterResponse hmore hafter hm
    refine ⟨hkeep.trans hblock, ?_⟩
    rw [cmdReady_false_iff, hend, afterResponse_ready_iff]
    omega
  · rw [clockEdges_working hpins (p := acceptedPort w p) rfl rfl hlen]
    exact ⟨rfl, rfl, atAcceptance_responses w p.block, fun hrun =>
      busy_atAcceptance_run hrun p.block⟩

end Sys2Proof.Machine
end

section
/-! PROOF. LOADGRID: the writes of its expansion and the cells they make alive (`30_encoding.md`
R104). -/

namespace Sys2Proof.Machine

/-- The alive cells of a grid in the order of LOADGRID: rows, then columns, increasing (R104). -/
def aliveCells (g : Grid) : List (Nat × Nat) :=
  (List.range 40).flatMap fun r => ((List.range 60).filter (g.cell r)).map fun c => (r, c)

/-- SETC r, c, 1. -/
def setAlive (p : Nat × Nat) : Instr := .setc (BitVec.ofNat 6 p.1) (BitVec.ofNat 6 p.2) true

theorem loadGrid_eq (g : Grid) : loadGrid g = .clr :: (aliveCells g).map setAlive := by
  simp only [loadGrid, aliveCells, List.map_flatMap, List.map_map]
  rfl

theorem mem_aliveCells (g : Grid) (r c : Nat) :
    (r, c) ∈ aliveCells g ↔ r < 40 ∧ c < 60 ∧ g.cell r c = true := by
  simp [aliveCells]

theorem length_filter_range (f : Nat → Bool) (n : Nat) :
    ((List.range n).filter f).length = sumTo (fun c => (f c).toNat) n := by
  induction n with
  | zero => rfl
  | succ n ih =>
    rw [List.range_succ, List.filter_append, List.length_append, ih, sumTo]
    cases h : f n <;> simp [h]

theorem sum_map_range (f : Nat → Nat) (n : Nat) : ((List.range n).map f).sum = sumTo f n := by
  rw [sumTo_eq_sum]
  rfl

theorem length_aliveCells (g : Grid) : (aliveCells g).length = g.pop := by
  simp only [aliveCells, List.length_flatMap, List.length_map, length_filter_range, sum_map_range,
    Grid.pop]

/-- The grid after every cell of `ps` is made alive. -/
def setCells (ps : List (Nat × Nat)) (g : Grid) : Grid :=
  ps.foldl (fun h p => h.setCell p.1 p.2 true) g

theorem cell_setCells (ps : List (Nat × Nat)) (g : Grid) {y x : Nat} (hy : y < 40) (hx : x < 60) :
    (setCells ps g).cell y x = (decide ((y, x) ∈ ps) || g.cell y x) := by
  induction ps generalizing g with
  | nil => simp [setCells]
  | cons p ps ih =>
    obtain ⟨r, c⟩ := p
    have hstep : setCells ((r, c) :: ps) g = setCells ps (g.setCell r c true) := rfl
    rw [hstep, ih, cell_setCell]
    by_cases h : y = r ∧ x = c
    · obtain ⟨rfl, rfl⟩ := h
      simp [hy, hx]
    · have hne : ¬ (y = r ∧ x = c ∧ r < 40 ∧ c < 60) := fun hcell => h ⟨hcell.1, hcell.2.1⟩
      rw [if_neg hne]
      simp only [List.mem_cons, Prod.mk.injEq, h, false_or]

theorem setCells_aliveCells (g : Grid) : setCells (aliveCells g) Grid.dead = g := by
  refine grid_ext fun r c hr hc => ?_
  rw [cell_setCells _ _ hr hc]
  simp [mem_aliveCells, hr, hc]

theorem exec_setAlive {p : Nat × Nat} (h : p.1 < 40 ∧ p.2 < 60) (s : State) :
    exec (setAlive p) s =
      .next (respond 0 (markSeeded (writeGrid (s.grid.setCell p.1 p.2 true) s))) := by
  have hrow : (BitVec.ofNat 6 p.1).toNat = p.1 := by rw [BitVec.toNat_ofNat]; omega
  have hcol : (BitVec.ofNat 6 p.2).toNat = p.2 := by rw [BitVec.toNat_ofNat]; omega
  rw [setAlive, exec_setc (by omega), hrow, hcol]

/-- A seeded block after SETC r, c, 1 for every cell of `ps`. -/
theorem execAll_setAlive {ps : List (Nat × Nat)} (hps : ∀ p ∈ ps, p.1 < 40 ∧ p.2 < 60) (s : State) :
    execAll (ps.map setAlive) (markSeeded s) = .next (markSeeded { s with
      grid := setCells ps s.grid
      responses := s.responses ++ List.replicate ps.length 0x00000000 }) := by
  induction ps generalizing s with
  | nil => simp [execAll, setCells]
  | cons p ps ih =>
    obtain ⟨hp, hrest⟩ := List.forall_mem_cons.1 hps
    rw [List.map_cons, execAll_cons (exec_setAlive hp _)]
    refine (ih hrest (respond 0 (writeGrid (s.grid.setCell p.1 p.2 true) s))).trans ?_
    rw [List.length_cons, List.replicate_succ, respond_responses, respond_grid, writeGrid_grid,
      writeGrid_responses, List.append_assoc]
    rfl

/-! ### The obligations of `30_encoding.md`: pseudo-commands -/

/-- Settles O59: CLR and the writes of `aliveCells`. -/
theorem loadGridLoads : Obligations.LoadGridLoads := by
  unfold Obligations.LoadGridLoads
  intro g s
  have hin : ∀ p ∈ aliveCells g, p.1 < 40 ∧ p.2 < 60 := fun p hp =>
    have h := (mem_aliveCells g p.1 p.2).1 hp
    ⟨h.1, h.2.1⟩
  rw [loadGrid_eq, execAll_cons (exec_clr s)]
  refine (execAll_setAlive hin (respond 0 (writeGrid Grid.dead s))).trans ?_
  rw [respond_grid, writeGrid_grid, setCells_aliveCells, length_aliveCells, respond_responses,
    writeGrid_responses, List.append_assoc, List.replicate_succ]
  rfl

end Sys2Proof.Machine
end

section
/-! PROOF. The grid commands and the register read: NOP, CLR, SETC, RDC and RDREG, as commands and
as accepted words (`40_grid_access.md` R121 to R126). -/

namespace Sys2Proof.Machine

open Sys2Proof.Safety

/-- An accepted word of a command's opcode runs the command, or is ILLEGAL by the must-be-zero bits
of its format (R96, R98). -/
theorem step_of_zeroBits {s : State} {w : Word} {rest : List HostEvent} {i : Instr} {zero : Prop}
    [Decidable zero] (hacc : Accepts s w rest)
    (hd : decode w = if zero then .ok i else .error .illegal) :
    step s = if zero then exec i { s with commands := rest }
      else .next (answered s rest 0x80000001) := by
  split_ifs at hd ⊢
  · exact step_of_decode hacc hd
  · exact (step_of_accepts hacc).trans (acceptWord_of_error hd _)

/-- A host write of GRID that raises no error: some grid, marked as a new seed (R126). -/
theorem exec_writes_newSeed {i : Instr} (h : i.mnemonic ∈ ["CLR", "SETC", "STEP"])
    (hi : i.wellFormed = true) (s : State) :
    ∃ g, exec i s = .next (respond 0 (markSeeded (writeGrid g s))) := by
  cases i with
  | clr => exact ⟨_, exec_clr s⟩
  | step => exact ⟨_, exec_step s⟩
  | setc row col v => exact ⟨_, exec_setc ((cellInRange_iff row col).1 hi) v s⟩
  | nop | rdc | ncnt | run | rdreg => simp [Instr.mnemonic] at h

/-! ### SETC -/

/-- A second write of GRID hides the first, but for its response (R126). -/
theorem newSeed_newSeed (g h : Grid) (s : State) :
    respond 0 (markSeeded (writeGrid h (respond 0 (markSeeded (writeGrid g s))))) =
      respond 0 (respond 0 (markSeeded (writeGrid h s))) := rfl

/-- Two SETC are two writes of GRID and two responses (R123). -/
theorem execAll_setc_setc {r c y x : CellField} (hrc : r.toNat < 40 ∧ c.toNat < 60)
    (hyx : y.toNat < 40 ∧ x.toNat < 60) (v u : Bool) (s : State) :
    execAll [.setc r c v, .setc y x u] s =
      .next (respond 0 (respond 0 (markSeeded (writeGrid
        ((s.grid.setCell r.toNat c.toNat v).setCell y.toNat x.toNat u) s)))) := by
  rw [execAll_cons (exec_setc hrc v s), execAll_cons (exec_setc hyx u _), respond_grid,
    markSeeded_grid, writeGrid_grid, newSeed_newSeed, execAll]

/-! ### The responses of RDC and RDREG -/

theorem okWord_bit (b : Bool) :
    okWord (BitVec.ofNat 31 b.toNat) = if b then 0x00000001 else 0x00000000 := by
  cases b <;> rfl

/-- RDC with its response word written out (R124). -/
theorem exec_rdc_bit {row col : CellField} (h : row.toNat < 40 ∧ col.toNat < 60) (s : State) :
    exec (.rdc row col) s = .next { s with
      responses := s.responses ++
        [if s.grid.cell row.toNat col.toNat then 0x00000001 else 0x00000000] } := by
  rw [exec_rdc h, ← okWord_bit]
  rfl

/-- RDREG with the register's value as a number (R125). -/
theorem exec_rdreg_of_toNat {reg : RegField} {n : RegName} (h : regOperand reg = some n) {s : State}
    {k : Nat} (hk : (regValue n s).toNat = k) :
    exec (.rdreg reg) s = .next { s with responses := s.responses ++ [BitVec.ofNat 32 k] } := by
  rw [exec_rdreg h, ← hk, BitVec.ofNat_toNat]
  rfl

theorem regValue_status_toNat (s : State) :
    (regValue .status s).toNat = (causeCode s.cause).toNat * 4 + (stateCode s.state).toNat :=
  calc (regValue .status s).toNat
    _ = (statusValue s).toNat := BitVec.toNat_setWidth_of_le (by decide)
    _ = (causeCode s.cause).toNat * 4 + (stateCode s.state).toNat := by
      rw [statusValue_toNat, Nat.mul_comm]

theorem regValue_pop_toNat (s : State) : (regValue .pop s).toNat = s.grid.pop := by
  have := pop_le s.grid
  rw [regValue, BitVec.toNat_ofNat]
  omega

/-! ### The obligations of `40_grid_access.md` -/

/-- Settles O11: NOP by its equation, its words by `decode_nop`. -/
theorem nopCommand : Obligations.NopCommand := by
  unfold Obligations.NopCommand
  refine ⟨exec_nop, fun s w rest hacc hop => ?_⟩
  rw [step_of_zeroBits hacc (decode_nop hop)]
  split_ifs
  · exact exec_nop _
  · rfl

/-- Settles O12: CLR by its equation, its words by `decode_clr`. -/
theorem clrCommand : Obligations.ClrCommand := by
  unfold Obligations.ClrCommand
  exact ⟨fun s => ⟨_, exec_clr s, fun r c _ _ => cell_dead r c, rfl⟩,
    fun s w rest hacc hop => step_of_zeroBits hacc (decode_clr hop)⟩

/-- Settles O13: SETC is `Grid.setCell`, read cell by cell; its words by `decode_setc`. -/
theorem setcCommand : Obligations.SetcCommand := by
  unfold Obligations.SetcCommand
  refine ⟨fun s row col v hrow hcol => ?_, fun s row col v hout => ?_,
    fun s w rest hacc hop => ?_, fun s r c y x v u hr hc hy hx hne => ?_,
    fun s r c v u hr hc => ?_⟩
  · refine ⟨_, exec_setc ⟨hrow, hcol⟩ v s, fun y x _ _ => ?_, rfl⟩
    rw [respond_grid, markSeeded_grid, writeGrid_grid, cell_setCell]
    simp only [hrow, hcol, and_true]
  · exact (exec_cell_outside (by omega) v s).1
  · rw [← rowField_eq, ← colField_eq, ← vField_eq]
    exact step_of_zeroBits hacc (decode_setc hop)
  · have hcells : ¬ (r.toNat = y.toNat ∧ c.toNat = x.toNat) := by
      rwa [BitVec.toNat_inj, BitVec.toNat_inj]
    rw [execAll_setc_setc ⟨hr, hc⟩ ⟨hy, hx⟩, execAll_setc_setc ⟨hy, hx⟩ ⟨hr, hc⟩,
      setCell_comm s.grid v u hcells]
  · refine ⟨_, _, execAll_setc_setc ⟨hr, hc⟩ ⟨hr, hc⟩ v u s, exec_setc ⟨hr, hc⟩ u s, ?_⟩
    simp only [respond_grid, markSeeded_grid, writeGrid_grid, setCell_setCell]

/-- Settles O14: RDC by its equation and the word of one bit, its words by `decode_rdc`. -/
theorem rdcCommand : Obligations.RdcCommand := by
  unfold Obligations.RdcCommand
  refine ⟨fun s row col hrow hcol => exec_rdc_bit ⟨hrow, hcol⟩ s, fun s row col hout => ?_,
    fun row col hrow hcol => ?_, fun s w rest hacc hop => ?_⟩
  · exact (exec_cell_outside (by omega) true s).2.1
  · have hdead : State.reset.grid.cell row.toNat col.toNat = false := cell_dead _ _
    rw [exec_rdc_bit ⟨hrow, hcol⟩, hdead]
    rfl
  · rw [← rowField_eq, ← colField_eq]
    exact step_of_zeroBits hacc (decode_rdc hop)

/-- Settles O15: each register as a number, its words by `decode_rdreg`. -/
theorem rdregCommand : Obligations.RdregCommand := by
  unfold Obligations.RdregCommand
  refine ⟨fun s => ⟨?_, ?_, ?_, ?_, ?_, ?_⟩, fun s reg hreg => ?_, fun s w rest hacc hop => ?_⟩
  · exact exec_rdreg_of_toNat (n := .config) rfl rfl
  · exact exec_rdreg_of_toNat (n := .status) rfl (regValue_status_toNat s)
  · exact exec_rdreg_of_toNat (n := .gen) rfl (BitVec.toNat_setWidth_of_le (by decide))
  · exact exec_rdreg_of_toNat (n := .score) rfl (BitVec.toNat_setWidth_of_le (by decide))
  · exact exec_rdreg_of_toNat (n := .hcnt) rfl (BitVec.toNat_setWidth_of_le (by decide))
  · exact exec_rdreg_of_toNat (n := .pop) rfl (regValue_pop_toNat s)
  · exact exec_rdreg_outside ((regOperand_eq_none_iff reg).2 hreg) s
  · rw [← regField_eq]
    exact step_of_zeroBits hacc (decode_rdreg hop)

/-- Settles O16: each of the three marks the grid it writes as a new seed. -/
theorem gridWritesMarkSeeded : Obligations.GridWritesMarkSeeded := by
  unfold Obligations.GridWritesMarkSeeded
  intro i s hname hi
  obtain ⟨g, hg⟩ := exec_writes_newSeed hname hi s
  exact ⟨_, hg, rfl, rfl, rfl, rfl, rfl, rfl⟩

end Sys2Proof.Machine
end

section
/-! PROOF. The automaton: the neighbour count as a count of cells, the rule, the next grid and the
population, and the commands NCNT and STEP (`41_neighbor_step.md` R142 to R157). -/

namespace Sys2Proof.Machine

open Sys2Proof.Safety

/-! ### The neighbour count as a cardinality -/

theorem sum_toNat_eq_card {α : Type} (s : Finset α) (f : α → Bool) :
    ∑ p ∈ s, (f p).toNat = (s.filter fun p => f p = true).card := by
  rw [Finset.card_filter]
  exact Finset.sum_congr rfl fun p _ => by cases f p <;> rfl

/-- The eight positions of the Moore neighbourhood, in the grid or not (R142). -/
def moorePositions (r c : Int) : Finset (Int × Int) :=
  {(r - 1, c - 1), (r - 1, c), (r - 1, c + 1), (r, c - 1), (r, c + 1),
    (r + 1, c - 1), (r + 1, c), (r + 1, c + 1)}

theorem mem_moorePositions (r c y x : Int) :
    (y, x) ∈ moorePositions r c ↔
      (y, x) ≠ (r, c) ∧ y ≤ r + 1 ∧ r ≤ y + 1 ∧ x ≤ c + 1 ∧ c ≤ x + 1 := by
  simp only [moorePositions, Finset.mem_insert, Finset.mem_singleton, Prod.mk.injEq, ne_eq]
  omega

theorem nCount_eq_sum (g : Grid) (r c : Nat) :
    g.nCount r c = ∑ p ∈ moorePositions r c, (g.cellAt p.1 p.2).toNat := by
  have hr : (r : Int) - 1 ≠ r + 1 := by omega
  have hc : (c : Int) - 1 ≠ c + 1 := by omega
  simp [moorePositions, Grid.nCount, Finset.sum_insert, hr, hc, add_assoc]

/-- The alive cells of the grid, other than the cell itself, whose row and column differ from its own
by at most one (R142). -/
def aliveNeighbours (g : Grid) (r c : Nat) : Finset (Nat × Nat) :=
  (Finset.range 40 ×ˢ Finset.range 60).filter fun p : Nat × Nat =>
    g.cell p.1 p.2 = true ∧ p ≠ (r, c) ∧
    p.1 ≤ r + 1 ∧ r ≤ p.1 + 1 ∧ p.2 ≤ c + 1 ∧ c ≤ p.2 + 1

theorem inside_of_cell {g : Grid} {r c : Nat} (h : g.cell r c = true) : r < 40 ∧ c < 60 := by
  by_contra hout
  simp [cell_of_outside g hout] at h

theorem mem_aliveNeighbours (g : Grid) (r c y x : Nat) :
    (y, x) ∈ aliveNeighbours g r c ↔
      g.cell y x = true ∧ (y, x) ≠ (r, c) ∧ y ≤ r + 1 ∧ r ≤ y + 1 ∧ x ≤ c + 1 ∧ c ≤ x + 1 := by
  simp only [aliveNeighbours, Finset.mem_filter, Finset.mem_product, Finset.mem_range]
  exact and_iff_right_of_imp fun h => inside_of_cell h.1

/-- The alive positions around a cell are the alive cells of the grid around it: outside the grid no
position is alive. -/
theorem card_alive_moorePositions (g : Grid) (r c : Nat) :
    ((moorePositions r c).filter fun p => g.cellAt p.1 p.2 = true).card =
      (aliveNeighbours g r c).card := by
  symm
  refine Finset.card_nbij' (fun p => (p.1, p.2)) (fun p => (p.1.toNat, p.2.toNat)) ?_ ?_ ?_ ?_
  · rintro ⟨y, x⟩ h
    obtain ⟨hcell, hne, hnear⟩ := (mem_aliveNeighbours g r c y x).1 h
    refine Finset.mem_filter.2 ⟨(mem_moorePositions ..).2 ?_, hcell⟩
    simp only [ne_eq, Prod.mk.injEq] at hne ⊢
    omega
  · rintro ⟨y, x⟩ h
    obtain ⟨hnear, halive⟩ := Finset.mem_filter.1 h
    rw [mem_moorePositions] at hnear
    rw [cellAt_eq] at halive
    split_ifs at halive with hin
    refine (mem_aliveNeighbours ..).2 ⟨halive, ?_⟩
    simp only [ne_eq, Prod.mk.injEq] at hnear ⊢
    omega
  · exact fun _ _ => rfl
  · rintro ⟨y, x⟩ h
    have halive := (Finset.mem_filter.1 h).2
    rw [cellAt_eq] at halive
    split_ifs at halive with hin
    exact Prod.ext (Int.toNat_of_nonneg hin.1) (Int.toNat_of_nonneg hin.2.2.1)

theorem nCount_eq_card (g : Grid) (r c : Nat) : g.nCount r c = (aliveNeighbours g r c).card := by
  rw [nCount_eq_sum, sum_toNat_eq_card, card_alive_moorePositions]

/-- The count depends on no cell but the eight around (R148). -/
theorem nCount_congr {g h : Grid} {r c : Nat}
    (e : ∀ y x, y < 40 → x < 60 → y ≤ r + 1 → r ≤ y + 1 → x ≤ c + 1 → c ≤ x + 1 →
      g.cell y x = h.cell y x) : g.nCount r c = h.nCount r c := by
  rw [nCount_eq_card, nCount_eq_card, aliveNeighbours, aliveNeighbours]
  refine congrArg Finset.card (Finset.filter_congr fun p hp => and_congr_left fun hnear => ?_)
  obtain ⟨hy, hx⟩ := Finset.mem_product.1 hp
  obtain ⟨-, h1, h2, h3, h4⟩ := hnear
  rw [e p.1 p.2 (Finset.mem_range.1 hy) (Finset.mem_range.1 hx) h1 h2 h3 h4]

/-- More alive cells, a count at least as large. -/
theorem nCount_mono {g h : Grid} (e : ∀ y x, g.cell y x = true → h.cell y x = true) (r c : Nat) :
    g.nCount r c ≤ h.nCount r c := by
  rw [nCount_eq_card, nCount_eq_card]
  refine Finset.card_le_card ?_
  rintro ⟨y, x⟩ hp
  rw [mem_aliveNeighbours] at hp ⊢
  exact hp.imp_left (e y x)

/-! ### The largest counts, and the edges -/

/-- The largest count of R143 by where the cell lies. -/
def largestCount (r c : Nat) : Nat :=
  if (r = 0 ∨ r = 39) ∧ (c = 0 ∨ c = 59) then 3
  else if (r = 0 ∨ r = 39) ∨ (c = 0 ∨ c = 59) then 5 else 8

/-- In the grid of 2400 alive cells the alive neighbours of a cell are a rectangle without the cell. -/
theorem aliveNeighbours_full {r c : Nat} (hr : r < 40) (hc : c < 60) :
    aliveNeighbours (Grid.ofFn fun _ _ => true) r c =
      (Finset.Icc (r - 1) (min (r + 1) 39) ×ˢ Finset.Icc (c - 1) (min (c + 1) 59)).erase (r, c) := by
  ext ⟨y, x⟩
  simp only [mem_aliveNeighbours, cell_ofFn, Finset.mem_erase, Finset.mem_product, Finset.mem_Icc,
    Bool.and_true, Bool.and_eq_true, decide_eq_true_iff, ne_eq, Prod.mk.injEq]
  omega

theorem nCount_full {r c : Nat} (hr : r < 40) (hc : c < 60) :
    (Grid.ofFn fun _ _ => true).nCount r c = largestCount r c := by
  have hrows : min (r + 1) 39 + 1 - (r - 1) = if r = 0 ∨ r = 39 then 2 else 3 := by
    split_ifs <;> omega
  have hcols : min (c + 1) 59 + 1 - (c - 1) = if c = 0 ∨ c = 59 then 2 else 3 := by
    split_ifs <;> omega
  have hself : (r, c) ∈
      Finset.Icc (r - 1) (min (r + 1) 39) ×ˢ Finset.Icc (c - 1) (min (c + 1) 59) := by
    simp only [Finset.mem_product, Finset.mem_Icc]
    omega
  rw [nCount_eq_card, aliveNeighbours_full hr hc, Finset.card_erase_of_mem hself,
    Finset.card_product, Nat.card_Icc, Nat.card_Icc, hrows, hcols, largestCount]
  by_cases hrow : r = 0 ∨ r = 39 <;> by_cases hcol : c = 0 ∨ c = 59 <;> simp [hrow, hcol]

theorem nCount_le_largestCount (g : Grid) {r c : Nat} (hr : r < 40) (hc : c < 60) :
    g.nCount r c ≤ largestCount r c := by
  rw [← nCount_full hr hc]
  refine nCount_mono (fun y x h => ?_) r c
  obtain ⟨hy, hx⟩ := inside_of_cell h
  simp [hy, hx]

/-! ### The rule and the next grid -/

/-- The rule in the words of R145. -/
theorem rule_eq_ite (a : Bool) (n : Nat) :
    rule a n = if n = 3 then true else if a = true ∧ n = 2 then true else false := by
  split_ifs with h3 h2
  · simp [rule, h3]
  · simp [rule, h2]
  · simpa [rule, h3] using h2

theorem cell_next_inside (g : Grid) {r c : Nat} (hr : r < 40) (hc : c < 60) :
    g.next.cell r c = rule (g.cell r c) (g.nCount r c) := by
  simp [hr, hc]

/-- A cell with at most one alive neighbour is dead in the next grid. -/
theorem rule_of_le_one (a : Bool) {n : Nat} (h : n ≤ 1) : rule a n = false := by
  rw [rule_eq_ite, if_neg (by omega), if_neg (by omega)]

/-- A dead cell with at most two alive neighbours stays dead. -/
theorem rule_false_of_le_two {n : Nat} (h : n ≤ 2) : rule false n = false := by
  rw [rule_eq_ite, if_neg (by omega), if_neg (by simp)]

theorem nCount_dead (r c : Nat) : Grid.dead.nCount r c = 0 := by
  simp [nCount_eq_cells]

theorem next_dead : Grid.dead.next = Grid.dead := by
  refine grid_ext fun r c hr hc => ?_
  rw [cell_next_inside _ hr hc, nCount_dead, rule_of_le_one _ (Nat.zero_le 1), cell_dead]

/-- The grid with one alive cell (R149). -/
def singleCell (r c : Nat) : Grid := Grid.ofFn fun y x => decide (y = r ∧ x = c)

/-- A single alive cell is a neighbour of others once, and of itself never. -/
theorem nCount_singleCell_le (r c y x : Nat) : (singleCell r c).nCount y x ≤ 1 := by
  rw [nCount_eq_card, ← Finset.card_singleton (r, c)]
  refine Finset.card_le_card ?_
  rintro ⟨b, a⟩ h
  have halive := ((mem_aliveNeighbours ..).1 h).1
  simp only [singleCell, cell_ofFn, Bool.and_eq_true, decide_eq_true_iff] at halive
  simpa using halive.2

theorem next_singleCell (r c : Nat) : (singleCell r c).next = Grid.dead := by
  refine grid_ext fun y x hy hx => ?_
  rw [cell_next_inside _ hy hx, rule_of_le_one _ (nCount_singleCell_le r c y x), cell_dead]

/-! ### The 2 by 2 block -/

/-- The grid whose alive cells are the 2 by 2 block with its upper left cell in `(r, c)` (R149). -/
def squareBlock (r c : Nat) : Grid :=
  Grid.ofFn fun y x => decide ((y = r ∨ y = r + 1) ∧ (x = c ∨ x = c + 1))

theorem cell_squareBlock {r c : Nat} (hr : r < 39) (hc : c < 59) (y x : Nat) :
    (squareBlock r c).cell y x = true ↔ (y = r ∨ y = r + 1) ∧ (x = c ∨ x = c + 1) := by
  simp only [squareBlock, cell_ofFn, Bool.and_eq_true, decide_eq_true_iff]
  omega

/-- A cell of the block has the other three as its neighbours. -/
theorem nCount_squareBlock_of_alive {r c y x : Nat} (hr : r < 39) (hc : c < 59)
    (h : (squareBlock r c).cell y x = true) : (squareBlock r c).nCount y x = 3 := by
  rw [cell_squareBlock hr hc] at h
  have hothers : aliveNeighbours (squareBlock r c) y x =
      (({r, r + 1} : Finset Nat) ×ˢ ({c, c + 1} : Finset Nat)).erase (y, x) := by
    ext ⟨b, a⟩
    simp only [mem_aliveNeighbours, cell_squareBlock hr hc, Finset.mem_erase, Finset.mem_product,
      Finset.mem_insert, Finset.mem_singleton, ne_eq, Prod.mk.injEq]
    omega
  rw [nCount_eq_card, hothers, Finset.card_erase_of_mem (by simpa using h), Finset.card_product]
  simp

theorem nCount_le_two {g : Grid} {r c : Nat} (y₁ x₁ y₂ x₂ : Nat)
    (h : ∀ y x, (y, x) ∈ aliveNeighbours g r c → y = y₁ ∧ x = x₁ ∨ y = y₂ ∧ x = x₂) :
    g.nCount r c ≤ 2 := by
  rw [nCount_eq_card]
  refine (Finset.card_le_card (t := {(y₁, x₁), (y₂, x₂)}) ?_).trans Finset.card_le_two
  rintro ⟨y, x⟩ hp
  simpa using h y x hp

/-- A cell beside the block touches no more than one of its four sides. -/
theorem nCount_squareBlock_of_dead {r c y x : Nat} (hr : r < 39) (hc : c < 59)
    (h : ¬ (squareBlock r c).cell y x = true) : (squareBlock r c).nCount y x ≤ 2 := by
  rw [cell_squareBlock hr hc] at h
  have hnear (b a : Nat) (hp : (b, a) ∈ aliveNeighbours (squareBlock r c) y x) :
      ((b = r ∨ b = r + 1) ∧ (a = c ∨ a = c + 1)) ∧
        b ≤ y + 1 ∧ y ≤ b + 1 ∧ a ≤ x + 1 ∧ x ≤ a + 1 := by
    rw [mem_aliveNeighbours, cell_squareBlock hr hc] at hp
    exact hp.imp_right And.right
  have hside : y < r ∨ r + 1 < y ∨ x < c ∨ c + 1 < x := by omega
  rcases hside with above | below | left | right
  · exact nCount_le_two r c r (c + 1) fun b a hp => by have := hnear b a hp; omega
  · exact nCount_le_two (r + 1) c (r + 1) (c + 1) fun b a hp => by have := hnear b a hp; omega
  · exact nCount_le_two r c (r + 1) c fun b a hp => by have := hnear b a hp; omega
  · exact nCount_le_two r (c + 1) (r + 1) (c + 1) fun b a hp => by have := hnear b a hp; omega

theorem next_squareBlock {r c : Nat} (hr : r < 39) (hc : c < 59) :
    (squareBlock r c).next = squareBlock r c := by
  refine grid_ext fun y x hy hx => ?_
  rw [cell_next_inside _ hy hx]
  by_cases h : (squareBlock r c).cell y x = true
  · rw [nCount_squareBlock_of_alive hr hc h, h]
    rfl
  · rw [Bool.eq_false_of_not_eq_true h, rule_false_of_le_two (nCount_squareBlock_of_dead hr hc h)]

/-! ### The population -/

theorem pop_eq_card (g : Grid) :
    g.pop = ((Finset.range 40 ×ˢ Finset.range 60).filter fun p : Nat × Nat =>
      g.cell p.1 p.2 = true).card := by
  simp only [Grid.pop, sumTo_eq_sum]
  rw [← sum_toNat_eq_card _ fun p : Nat × Nat => g.cell p.1 p.2, Finset.sum_product]

theorem pop_eq_zero_iff (g : Grid) : g.pop = 0 ↔ g = Grid.dead := by
  simp only [Grid.pop, sumTo_eq_zero_iff, Bool.toNat_eq_zero, grid_eq_iff, cell_dead]
  exact ⟨fun h r c hr hc => h r hr c hc, fun h r hr c hc => h r c hr hc⟩

theorem extinct_iff (g : Grid) : g.extinct = true ↔ g = Grid.dead := by
  rw [Grid.extinct, beq_iff_eq, pop_eq_zero_iff]

/-! ### NCNT and STEP -/

/-- NCNT with its response word written out: a count fits the payload (R155). -/
theorem exec_ncnt_count {row col : CellField} (h : row.toNat < 40 ∧ col.toNat < 60) (s : State) :
    exec (.ncnt row col) s = .next { s with
      responses := s.responses ++ [BitVec.ofNat 32 (s.grid.nCount row.toNat col.toNat)] } := by
  have hcount := nCount_le s.grid row.toNat col.toNat
  have hword : okWord (BitVec.ofNat 31 (s.grid.nCount row.toNat col.toNat)) =
      BitVec.ofNat 32 (s.grid.nCount row.toNat col.toNat) := by
    apply BitVec.eq_of_toNat_eq
    rw [okWord_toNat, BitVec.toNat_ofNat, BitVec.toNat_ofNat]
    omega
  rw [exec_ncnt h, ← hword]
  rfl

/-- A write of GRID with response OK(0), field by field (R126). -/
theorem respond_newSeed (g : Grid) (s : State) :
    respond 0 (markSeeded (writeGrid g s)) = { s with
      grid := g, state := .seeded, cause := .none, responses := s.responses ++ [0x00000000] } := rfl

/-! ### The obligations of `41_neighbor_step.md` -/

/-- Settles O17: the eight positions, cut down to the alive cells of the grid. -/
theorem neighbourCountIsMoore : Obligations.NeighbourCountIsMoore := by
  unfold Obligations.NeighbourCountIsMoore
  exact ⟨fun g r c _ _ => nCount_eq_card g r c, cellAt_eq, fun _ _ _ => rfl⟩

/-- Settles O18: no grid has more alive cells than the full one. -/
theorem largestNeighbourCount : Obligations.LargestNeighbourCount := by
  unfold Obligations.LargestNeighbourCount
  exact fun r c hr hc => ⟨fun g => nCount_le_largestCount g hr hc, nCount_full hr hc⟩

/-- Settles O19: the count over the cells themselves, with row 40 and column 60 dead. -/
theorem edgePositions : Obligations.EdgePositions := by
  unfold Obligations.EdgePositions
  intro g
  have hbelow (c : Nat) : g.cell 40 c = false := cell_of_outside g (by omega)
  have hright (r : Nat) : g.cell r 60 = false := cell_of_outside g (by omega)
  refine ⟨?_, ?_, ?_, ?_, fun c hc _ => ?_, fun r hr _ => ?_⟩
  · simp [nCount_eq_cells]
  · simp [nCount_eq_cells, hright]
  · simp [nCount_eq_cells, hbelow]
  · simp [nCount_eq_cells, hbelow, hright]
  · have hne : c ≠ 0 := by omega
    simp [nCount_eq_cells, hne, hbelow]
  · have hne : r ≠ 0 := by omega
    simp [nCount_eq_cells, hne, hright]

/-- Settles O20: R145 by `rule_eq_ite`, the Boolean form over its 18 cases. -/
theorem transitionRule : Obligations.TransitionRule := by
  unfold Obligations.TransitionRule
  exact fun a n => ⟨rule_eq_ite a n.val, by revert a n; decide⟩

/-- Settles O21: the rule cell by cell; the cell and its count depend on the nine cells only. -/
theorem nextGridIsSimultaneous : Obligations.NextGridIsSimultaneous := by
  unfold Obligations.NextGridIsSimultaneous
  refine ⟨fun g r c hr hc => cell_next_inside g hr hc, fun g h r c hr hc e => ?_⟩
  rw [cell_next_inside g hr hc, cell_next_inside h hr hc, nCount_congr e,
    e r c hr hc (by omega) (by omega) (by omega) (by omega)]

/-- Settles O22: a single cell counts at most once, the block 3 inside and at most 2 beside it. -/
theorem stepFacts : Obligations.StepFacts := by
  unfold Obligations.StepFacts
  exact ⟨next_dead, fun r c _ _ => next_singleCell r c, fun r c hr hc => next_squareBlock hr hc⟩

/-- Settles O23: the double sum of `Pop` as one count of pairs. -/
theorem populationCountsCells : Obligations.PopulationCountsCells := by
  unfold Obligations.PopulationCountsCells
  exact fun g => ⟨pop_eq_card g, pop_le g, pop_eq_zero_iff g, extinct_iff g⟩

/-- Settles O26: NCNT by its equation and the largest count, its words by `decode_ncnt`. -/
theorem ncntCommand : Obligations.NcntCommand := by
  unfold Obligations.NcntCommand
  refine ⟨fun s row col hrow hcol => ⟨?_, exec_ncnt_count ⟨hrow, hcol⟩ s⟩,
    fun s row col hout => ?_, fun s w rest hacc hop => ?_⟩
  · simpa only [largestCount, or_assoc] using nCount_le_largestCount s.grid hrow hcol
  · exact (exec_cell_outside (by omega) true s).2.2
  · rw [← rowField_eq, ← colField_eq]
    exact step_of_zeroBits hacc (decode_ncnt hop)

/-- Settles O27: STEP by its equation and the rule cell by cell, its words by `decode_step`. -/
theorem stepCommand : Obligations.StepCommand := by
  unfold Obligations.StepCommand
  refine ⟨fun s => ⟨_, exec_step s, fun r c hr hc => ?_, respond_newSeed s.grid.next s⟩,
    fun s w rest hacc hop => step_of_zeroBits hacc (decode_step hop)⟩
  rw [respond_grid, markSeeded_grid, writeGrid_grid, cell_next_inside _ hr hc, rule_eq_ite]

end Sys2Proof.Machine
end

section
/-! PROOF. The RUN command: one pass of `RunIter` by its exits, the run as a function of its seed, and
what a host can rely on after it (`42_run.md` R170 to R204). -/

namespace Sys2Proof.Machine

open Sys2Proof.Safety

/-! ### One pass, exit by exit -/

theorem runIter_of_full {s : State} (h : 1000 ≤ s.gen.toNat) : runIter s = terminate .max s := by
  simp only [runIter, if_pos h]

theorem runIter_of_seen {s : State} (hgen : s.gen.toNat < 1000) (h : s.grid ∈ s.seen) :
    runIter s = terminate .repeated (countIteration s) := by
  have hmember : member (countIteration s).grid (countIteration s) = true := (member_iff _ _).2 h
  simp only [runIter, if_neg (Nat.not_le.2 hgen), hmember, if_true]

theorem runIter_of_new {s : State} (hgen : s.gen.toNat < 1000) (h : s.grid ∉ s.seen) :
    runIter s = settle s.grid.next (storeGrid (countIteration s)) := by
  have hmember : ¬ member (countIteration s).grid (countIteration s) = true :=
    mt (member_iff _ _).1 h
  simp only [runIter, if_neg (Nat.not_le.2 hgen), if_neg hmember]
  rw [countIteration_grid]

theorem runIter_of_stable {s : State} (hgen : s.gen.toNat < 1000) (hnew : s.grid ∉ s.seen)
    (h : s.grid.next = s.grid) : runIter s = terminate .stable (scoredPass s) := by
  rw [runIter_of_new hgen hnew, settle]
  exact if_pos h

theorem runIter_of_extinct {s : State} (hgen : s.gen.toNat < 1000) (hnew : s.grid ∉ s.seen)
    (hmove : s.grid.next ≠ s.grid) (h : s.grid.next.pop = 0) :
    runIter s = terminate .extinct (scoredPass s) := by
  rw [runIter_of_new hgen hnew, settle]
  exact (if_neg hmove).trans (if_pos (beq_iff_eq.2 h))

theorem runIter_of_advances {s : State} (hgen : s.gen.toNat < 1000) (hnew : s.grid ∉ s.seen)
    (hmove : s.grid.next ≠ s.grid) (h : s.grid.next.pop ≠ 0) :
    runIter s = writeGrid s.grid.next (scoredPass s) := by
  rw [runIter_of_new hgen hnew, settle]
  exact (if_neg hmove).trans (if_neg (mt beq_iff_eq.1 h))

/-- Within R201 to R203 a pass that stores its grid counts, stores and scores without a wrap. -/
theorem scoredPass_counts {s : State} (h : RunBounds s) (hlt : s.gen.toNat < 1000) :
    (scoredPass s).gen.toNat = s.gen.toNat + 1 ∧ (scoredPass s).hcnt.toNat = s.hcnt.toNat + 1 ∧
      (scoredPass s).seen = s.seen ++ [s.grid] ∧
      (scoredPass s).score.toNat = s.score.toNat + s.grid.next.pop := by
  obtain ⟨-, hfill, hstored, hscore⟩ := h
  have hk : s.hcnt.toNat = s.gen.toNat := congrArg BitVec.toNat hfill
  have hfits : s.score.toNat ≤ 2400 * 1000 := by omega
  exact ⟨toNat_succ (x := s.gen) (by omega), toNat_succ (x := s.hcnt) (by omega),
    scoredPass_seen hstored (by omega),
    scoreNext_score_toNat (s := storeGrid (countIteration s)) s.grid.next hfits⟩

/-! ### What a run reads of a state -/

/-- What the rules of a run can read: HIST cut down to its valid entries (R37), and no port. -/
def runView (s : State) : State := { s with hist := s.seen, commands := [], responses := [] }

@[simp] theorem runView_grid (s : State) : (runView s).grid = s.grid := rfl
@[simp] theorem runView_state (s : State) : (runView s).state = s.state := rfl
@[simp] theorem runView_cause (s : State) : (runView s).cause = s.cause := rfl
@[simp] theorem runView_gen (s : State) : (runView s).gen = s.gen := rfl
@[simp] theorem runView_score (s : State) : (runView s).score = s.score := rfl
@[simp] theorem runView_hcnt (s : State) : (runView s).hcnt = s.hcnt := rfl

@[simp] theorem runView_seen (s : State) : (runView s).seen = s.seen := by
  simp [runView, State.seen, List.take_take]

theorem registers_of_runView_eq {t v : State} (h : runView t = runView v) :
    t.grid = v.grid ∧ t.state = v.state ∧ t.cause = v.cause ∧ t.gen = v.gen ∧ t.score = v.score ∧
      t.hcnt = v.hcnt ∧ t.seen = v.seen := by
  simpa only [runView, State.mk.injEq, and_true] using h

theorem runView_terminate (c : Cause) (s : State) :
    runView (terminate c s) = terminate c (runView s) := rfl

theorem runView_countIteration (s : State) :
    runView (countIteration s) = countIteration (runView s) := rfl

theorem runView_writeGrid (g : Grid) (s : State) :
    runView (writeGrid g s) = writeGrid g (runView s) := rfl

theorem storeAt_take (h : List Grid) (k : Nat) (g : Grid) :
    storeAt (h.take k) k g = h.take k ++ [g] := by
  simp [storeAt, List.take_take, List.drop_take]

theorem runView_scoredPass {s : State} (h : RunBounds s) :
    runView (scoredPass s) = scoredPass (runView s) := by
  obtain ⟨hgen, hfill, hstored, -⟩ := h
  have hseen := scoredPass_seen hstored (by rw [hfill]; omega)
  rw [runView, hseen, State.seen, ← storeAt_take]
  rfl

/-- A pass reads no more of the state than its view (R36, R37, R176). -/
theorem runView_runIter {s : State} (h : RunBounds s) :
    runView (runIter s) = runIter (runView s) := by
  rcases runIter_exits s with ⟨hfull, e⟩ | ⟨hgen, hseen, e⟩ | ⟨hgen, hnew, hstab, e⟩ |
    ⟨hgen, hnew, hmove, hdead, e⟩ | ⟨hgen, hnew, hmove, hlive, e⟩
  · rw [e, runIter_of_full (s := runView s) (by simpa using hfull), runView_terminate]
  · rw [e, runIter_of_seen (s := runView s) hgen (by simpa using hseen),
      runView_terminate, runView_countIteration]
  · rw [e, runIter_of_stable (s := runView s) hgen (by simpa using hnew) hstab,
      runView_terminate, runView_scoredPass h]
  · rw [e, runIter_of_extinct (s := runView s) hgen (by simpa using hnew) hmove hdead,
      runView_terminate, runView_scoredPass h]
  · rw [e, runIter_of_advances (s := runView s) hgen (by simpa using hnew) hmove hlive,
      runView_writeGrid, runView_scoredPass h, runView_grid]

theorem runView_runLoop (n : Nat) {s : State} (h : RunBounds s) :
    runView (runLoop n s) = runLoop n (runView s) := by
  induction n generalizing s with
  | zero => rfl
  | succ n ih =>
    by_cases hstep : s.state = .stepping
    · rw [runLoop_of_stepping hstep, runLoop_of_stepping (s := runView s) hstep, ← runView_runIter h]
      by_cases hend : (runIter s).state = .terminated
      · rw [runLoop_of_ended (by simp [hend]), runLoop_of_ended (by simp [hend])]
      · exact ih (runIter_keeps_runBounds h hend)
    · rw [runLoop_of_ended hstep, runLoop_of_ended (s := runView s) hstep]

/-- The reset state with `g` in GRID. -/
def seedOnly (g : Grid) : State := { State.reset with grid := g }

/-- RunInit leaves nothing but GRID for the run to read (R172). -/
theorem runView_runInit (s : State) : runView (runInit s) = runInit (seedOnly s.grid) := rfl

/-- The end of a run is a function of the seed grid (R204). -/
theorem runView_run (s : State) :
    runView (runLoop 1001 (runInit s)) = runLoop 1001 (runInit (seedOnly s.grid)) := by
  rw [runView_runLoop 1001 (runInit_runBounds s), runView_runInit]

/-- The end of a run meets the invariants between commands, in what a run reads (R44). -/
theorem runView_run_readyInv (s : State) : ReadyInv (runView (runLoop 1001 (runInit s))) := by
  rw [runView_run]
  exact runLoop_runInit_readyInv (Nat.zero_le 1000)

/-- A run ends in a pass from a state that meets R203 for its seed. -/
theorem runView_run_eq_pass (s : State) :
    ∃ u, RunInv s.grid u ∧ (runIter u).state = .terminated ∧
      runView (runLoop 1001 (runInit s)) = runIter u := by
  rw [runView_run]
  exact runLoop_ends_in_pass (P := RunInv s.grid)
    (fun u hu hgoes => ((runIter_keeps_runInv hu).resolve_left fun hend => hgoes hend.1).2) 1001
    (runInit_state _) (Nat.zero_le _) rfl (runInit_runInv (s := seedOnly s.grid) (Nat.zero_le 1000))

/-- Once a run has ended, more passes change nothing (R191). -/
theorem runLoop_of_le {m n : Nat} (hle : m ≤ n) {s : State}
    (hend : (runLoop m s).state = .terminated) : runLoop n s = runLoop m s := by
  induction m generalizing n s with
  | zero => exact runLoop_of_ended (by simp [show s.state = .terminated from hend]) n
  | succ m ih =>
    by_cases hstep : s.state = .stepping
    · obtain ⟨n, rfl⟩ := Nat.exists_eq_add_of_le' (show 1 ≤ n by omega)
      rw [runLoop_of_stepping hstep] at hend ⊢
      rw [runLoop_of_stepping hstep, ih (by omega) hend]
    · rw [runLoop_of_ended hstep, runLoop_of_ended hstep]

/-! ### The terminal conditions of R190, in a run -/

/-- No iteration that the run has made met a terminal condition (R190, R203). -/
theorem not_terminalAt_of_runInv {g0 : Grid} {s : State} (h : RunInv g0 s) {k : Nat} (hpos : 1 ≤ k)
    (hk : k ≤ s.gen.toNat) : ¬ TerminalAt g0 k := by
  obtain ⟨-, -, -, -, -, hseen, -, hnodup, hchanged, -⟩ := h
  obtain ⟨k, rfl⟩ := Nat.exists_eq_add_of_le' hpos
  obtain ⟨hmove, hlive⟩ := hchanged k hk
  rw [hseen] at hnodup
  rintro (⟨j, hj, hsame⟩ | hstab | hdies)
  · have hne : j = k := List.inj_on_of_nodup_map hnodup (List.mem_range.2 (by omega))
      (List.mem_range.2 hk) hsame
    omega
  · exact hmove hstab
  · exact hlive ((pop_eq_zero_iff _).1 hdies)

/-- `Member(GRID)` at the head of an iteration is `rep` of that iteration (R180, R190). -/
theorem repeatsAt_iff_of_runInv {g0 : Grid} {s : State} (h : RunInv g0 s) :
    RepeatsAt g0 (s.gen.toNat + 1) ↔ s.grid ∈ s.seen := by
  obtain ⟨-, -, -, -, hgrid, hseen, -⟩ := h
  simp only [RepeatsAt, hseen, List.mem_map, List.mem_range, hgrid, Nat.add_sub_cancel]
  exact exists_congr fun j => and_congr_left fun _ => by omega

theorem stabilisesAt_iff_of_runInv {g0 : Grid} {s : State} (h : RunInv g0 s) :
    StabilisesAt g0 (s.gen.toNat + 1) ↔ s.grid.next = s.grid := by
  obtain ⟨-, -, -, -, hgrid, -⟩ := h
  rw [hgrid]
  rfl

theorem diesAt_iff_of_runInv {g0 : Grid} {s : State} (h : RunInv g0 s) :
    DiesAt g0 (s.gen.toNat + 1) ↔ s.grid.next.pop = 0 := by
  obtain ⟨-, -, -, -, hgrid, -⟩ := h
  rw [hgrid]
  rfl

/-- An iteration that meets a terminal condition is the first of its run to do so. -/
theorem firstTerminal_of_runInv {g0 : Grid} {s : State} (h : RunInv g0 s)
    (hterm : TerminalAt g0 (s.gen.toNat + 1)) : FirstTerminal g0 (s.gen.toNat + 1) :=
  ⟨by omega, hterm, fun _ hpos hlt => not_terminalAt_of_runInv h hpos (by omega)⟩

/-! ### The table of R190 -/

/-- A row of R190's table, of a run of the seed `g0`: GRID is `g(last)`, and SCORE the sum of the first
`terms` populations. -/
structure RunRow (g0 : Grid) (t : State) (cause : Cause) (gen last hcnt terms : Nat) : Prop where
  cause : t.cause = cause
  gen : t.gen.toNat = gen
  grid : t.grid = generation g0 last
  hcnt : t.hcnt.toNat = hcnt
  seen : t.seen = (List.range t.hcnt.toNat).map (generation g0)
  score : t.score.toNat = scoreSum g0 terms

theorem runRow_runView_iff {g0 : Grid} {t : State} {c : Cause} {gen last hcnt terms : Nat} :
    RunRow g0 (runView t) c gen last hcnt terms ↔ RunRow g0 t c gen last hcnt terms := by
  constructor
  · rintro ⟨hcause, hgen, hgrid, hhcnt, hseen, hscore⟩
    exact ⟨hcause, hgen, hgrid, hhcnt, (runView_seen t).symm.trans hseen, hscore⟩
  · rintro ⟨hcause, hgen, hgrid, hhcnt, hseen, hscore⟩
    exact ⟨hcause, hgen, hgrid, hhcnt, (runView_seen t).trans hseen, hscore⟩

theorem runRow_of_full {g0 : Grid} {s : State} (h : RunInv g0 s) (hfull : 1000 ≤ s.gen.toNat) :
    RunRow g0 (terminate .max s) .max 1000 1000 1000 1001 := by
  have hrec := runRecord_of_runInv h
  have ⟨_, _, _, _, hgrid, _⟩ := h
  have hgen : s.gen.toNat = 1000 := hrec.gen_le.antisymm hfull
  constructor
  case cause => rfl
  case gen => exact hgen
  case grid => rw [terminate_grid, hgrid, hgen]
  case hcnt => exact hrec.hcnt_eq.trans hgen
  case seen => rw [terminate_seen, terminate_hcnt, hrec.seen, hrec.fill]
  case score => rw [terminate_score, hrec.score, hgen]

theorem runRow_of_repeat {g0 : Grid} {s : State} (h : RunInv g0 s) (hlt : s.gen.toNat < 1000) :
    RunRow g0 (terminate .repeated (countIteration s)) .repeated (s.gen.toNat + 1) s.gen.toNat
      s.gen.toNat (s.gen.toNat + 1) := by
  have hrec := runRecord_of_runInv h
  have ⟨_, _, _, _, hgrid, _⟩ := h
  constructor
  case cause => rfl
  case gen => exact toNat_succ (by omega)
  case grid => exact hgrid
  case hcnt => exact hrec.hcnt_eq
  case seen =>
    rw [terminate_seen, countIteration_seen, terminate_hcnt, countIteration_hcnt, hrec.seen, hrec.fill]
  case score => exact hrec.score

theorem runRow_of_scoredPass {g0 : Grid} {s : State} (h : RunInv g0 s) (hlt : s.gen.toNat < 1000)
    (hnew : s.grid ∉ s.seen) (c : Cause) :
    RunRow g0 (terminate c (scoredPass s)) c (s.gen.toNat + 1) s.gen.toNat (s.gen.toNat + 1)
      (s.gen.toNat + 2) := by
  have ⟨_, _, _, _, hgrid, _⟩ := h
  have hrec := (runRecord_of_runInv h).after_scoredPass hgrid hlt hnew
  have hcount : (scoredPass s).gen.toNat = s.gen.toNat + 1 := toNat_succ (by omega)
  constructor
  case cause => rfl
  case gen => exact hcount
  case grid => exact hgrid
  case hcnt => exact hrec.hcnt_eq.trans hcount
  case seen => rw [terminate_seen, terminate_hcnt, hrec.seen, hrec.fill]
  case score => rw [terminate_score, hrec.score, hcount]

/-- R190's table: the row of the least terminal index `K`, by its first condition, or the row of the
cap. -/
theorem runRow_cases (s : State) :
    (∃ K, K ≤ 1000 ∧ FirstTerminal s.grid K ∧
      ((RepeatsAt s.grid K ∧
          RunRow s.grid (runLoop 1001 (runInit s)) .repeated K (K - 1) (K - 1) K) ∨
        (¬ RepeatsAt s.grid K ∧ StabilisesAt s.grid K ∧
          RunRow s.grid (runLoop 1001 (runInit s)) .stable K (K - 1) K (K + 1)) ∨
        (¬ RepeatsAt s.grid K ∧ ¬ StabilisesAt s.grid K ∧ DiesAt s.grid K ∧
          RunRow s.grid (runLoop 1001 (runInit s)) .extinct K (K - 1) K (K + 1)))) ∨
    ((∀ K, 1 ≤ K → K ≤ 1000 → ¬ TerminalAt s.grid K) ∧
      RunRow s.grid (runLoop 1001 (runInit s)) .max 1000 1000 1000 1001) := by
  obtain ⟨u, hinv, hend, hview⟩ := runView_run_eq_pass s
  have hrep := repeatsAt_iff_of_runInv hinv
  have hstab := stabilisesAt_iff_of_runInv hinv
  have hdies := diesAt_iff_of_runInv hinv
  simp only [← runRow_runView_iff (t := runLoop 1001 (runInit s)), hview]
  rcases runIter_exits u with ⟨hfull, e⟩ | ⟨hlt, hseen, e⟩ | ⟨hlt, hnew, hstill, e⟩ |
    ⟨hlt, hnew, hmove, hdead, e⟩ | ⟨-, -, -, -, e⟩
  · rw [e]
    exact .inr ⟨fun K hpos hK => not_terminalAt_of_runInv hinv hpos (by omega),
      runRow_of_full hinv hfull⟩
  · rw [e]
    have hrep' := hrep.2 hseen
    exact .inl ⟨_, hlt, firstTerminal_of_runInv hinv (.inl hrep'),
      .inl ⟨hrep', runRow_of_repeat hinv hlt⟩⟩
  · rw [e]
    have hstab' := hstab.2 hstill
    exact .inl ⟨_, hlt, firstTerminal_of_runInv hinv (.inr (.inl hstab')),
      .inr (.inl ⟨mt hrep.1 hnew, hstab', runRow_of_scoredPass hinv hlt hnew _⟩)⟩
  · rw [e]
    have hdies' := hdies.2 hdead
    exact .inl ⟨_, hlt, firstTerminal_of_runInv hinv (.inr (.inr hdies')),
      .inr (.inr ⟨mt hrep.1 hnew, mt hstab.1 hmove, hdies', runRow_of_scoredPass hinv hlt hnew _⟩)⟩
  · have ⟨hstep, _⟩ := hinv
    rw [e] at hend
    simp [hstep] at hend

/-- RUN touches the registers of a run and gives one response (R170). -/
theorem respond_run_frame {s r : State} (hr : runLoop 1001 (runInit s) = r) :
    respond 0 r = { s with
      grid := r.grid, state := .terminated, cause := r.cause, gen := r.gen, score := r.score
      hcnt := r.hcnt, hist := r.hist, responses := s.responses ++ [0x00000000] } := by
  have hstate : r.state = .terminated := by rw [← hr, runLoop_runInit_state]
  have hcommands : r.commands = s.commands := by rw [← hr, runLoop_commands, runInit_commands]
  have hresponses : r.responses = s.responses := by rw [← hr, runLoop_responses, runInit_responses]
  rw [← hstate, ← hcommands, ← hresponses]
  rfl

/-- A run whose first pass ends it is that pass (R177). -/
theorem exec_run_of_first_pass {s r : State} (hpass : runIter (runInit s) = r)
    (hend : r.state = .terminated) : exec .run s = .next (respond 0 r) := by
  rw [exec_run, runLoop_of_stepping (runInit_state s) 1000, hpass, runLoop_of_ended (by simp [hend])]

theorem runInit_score_toNat (s : State) : (runInit s).score.toNat = s.grid.pop := by
  have hpop := pop_le s.grid
  rw [runInit_score, BitVec.toNat_ofNat, Nat.mod_eq_of_lt (by omega)]

/-! ### The obligations of `42_run.md` -/

/-- Settles O34: R203 after RunInit, and kept by the sequencer. -/
theorem runInvariantKept : Obligations.RunInvariantKept := by
  unfold Obligations.RunInvariantKept
  refine ⟨fun s hlen => runInit_runInv hlen, fun g0 s t hinv hiter ht => ?_⟩
  rcases sequencerStep_keeps_inv hinv ((step_of_iterating hiter).symm.trans ht) with
    ⟨hend, hready⟩ | ⟨hstep, hrun⟩
  · exact ⟨fun hstep => by simp [hend] at hstep, fun _ => hready⟩
  · exact ⟨fun _ => hrun, fun hend => absurd hstep hend⟩

/-- Settles O28: the rows of R190's table, and the frame of RUN. -/
theorem runClosedForm : Obligations.RunClosedForm := by
  unfold Obligations.RunClosedForm
  intro s
  have hcases := runRow_cases s
  have hrun := exec_run s
  generalize hr : runLoop 1001 (runInit s) = r at hcases hrun
  refine ⟨_, hrun, respond_run_frame hr, ?_⟩
  rcases hcases with ⟨K, hK, hfirst, ⟨hrep, row⟩ | ⟨hrep, hstab, row⟩ | ⟨hrep, hstab, hdies, row⟩⟩ |
    ⟨hnone, row⟩
  · exact ⟨row.seen, .inl ⟨K, hK, hfirst, row.gen, row.grid,
      .inl ⟨hrep, row.cause, row.hcnt, row.score⟩⟩⟩
  · exact ⟨row.seen, .inl ⟨K, hK, hfirst, row.gen, row.grid,
      .inr (.inl ⟨hrep, hstab, row.cause, row.hcnt, row.score⟩)⟩⟩
  · exact ⟨row.seen, .inl ⟨K, hK, hfirst, row.gen, row.grid,
      .inr (.inr ⟨hrep, hstab, hdies, row.cause, row.hcnt, row.score⟩)⟩⟩
  · exact ⟨row.seen, .inr ⟨hnone, row.cause, row.gen, row.hcnt, row.grid, row.score⟩⟩

/-- Settles O29: the words of opcode 6 by `decode_run`. -/
theorem runWordRuns : Obligations.RunWordRuns := by
  unfold Obligations.RunWordRuns
  exact fun s w rest hacc hop => step_of_zeroBits hacc (decode_run hop)

/-- Settles O31: the equation of each exit; the counters do not wrap within R201 to R203. -/
theorem runIteration : Obligations.RunIteration := by
  unfold Obligations.RunIteration
  intro s hstep hbounds
  by_cases hfull : 1000 ≤ s.gen.toNat
  · rw [if_pos hfull]
    exact runIter_of_full hfull
  rw [if_neg hfull]
  have hlt := Nat.not_le.1 hfull
  obtain ⟨hgen, hhcnt, hstore, hsum⟩ := scoredPass_counts hbounds hlt
  split_ifs with hseen hstill hdead
  · rw [runIter_of_seen hlt hseen]
    exact ⟨rfl, hgen⟩
  · rw [runIter_of_stable hlt hseen hstill]
    exact ⟨hgen, hhcnt, hstore, hsum, rfl, rfl, rfl, rfl, rfl⟩
  · rw [runIter_of_extinct hlt hseen hstill hdead]
    exact ⟨hgen, hhcnt, hstore, hsum, rfl, rfl, rfl, rfl, rfl⟩
  · rw [runIter_of_advances hlt hseen hstill hdead]
    exact ⟨hgen, hhcnt, (writeGrid_seen _ _).trans hstore, hsum, writeGrid_commands _ _,
      writeGrid_responses _ _, writeGrid_cause _ _, (writeGrid_state _ _).trans hstep,
      writeGrid_grid _ _⟩

/-- Settles O38: MAX ends the loop in time, and R44 bounds the registers. -/
theorem runEndsWithinBound : Obligations.RunEndsWithinBound := by
  unfold Obligations.RunEndsWithinBound
  intro s
  have hend := runLoop_runInit_state s
  have hsettled (n : Nat) (hn : 1001 ≤ n) := runLoop_of_le hn hend
  have hready := runView_run_readyInv s
  have hrun := exec_run s
  generalize runLoop 1001 (runInit s) = r at hend hsettled hready hrun
  obtain ⟨-, -, hgen, hhcnt, hscore, hpos, -⟩ := hready
  exact ⟨hend, hsettled, _, hrun, hpos hend, hgen, hscore, hhcnt⟩

/-- Settles O39: both runs have the view of the run of their common seed. -/
theorem runDependsOnGridAlone : Obligations.RunDependsOnGridAlone := by
  unfold Obligations.RunDependsOnGridAlone
  intro s u hgrid
  have hview : runView (runLoop 1001 (runInit s)) = runView (runLoop 1001 (runInit u)) := by
    rw [runView_run, runView_run, hgrid]
  have hs := exec_run s
  have hu := exec_run u
  generalize runLoop 1001 (runInit s) = t at hview hs
  generalize runLoop 1001 (runInit u) = v at hview hu
  exact ⟨_, _, hs, hu, registers_of_runView_eq hview⟩

/-- Settles O40: what the conditions of R190 at `K` say of the grid of the last iteration. -/
theorem runResultsByCause : Obligations.RunResultsByCause := by
  unfold Obligations.RunResultsByCause
  intro s t ht
  have hcases := runRow_cases s
  obtain rfl := Host.Outcome.next.inj ((exec_run s).symm.trans ht)
  generalize runLoop 1001 (runInit s) = r at hcases
  simp only [respond_cause, respond_gen, respond_grid]
  rcases hcases with ⟨K, hK, ⟨hpos, -, hleast⟩, hrows⟩ | ⟨-, row⟩
  · obtain ⟨k, rfl⟩ := Nat.exists_eq_add_of_le' hpos
    rcases hrows with ⟨⟨j, hj, hsame⟩, row⟩ | ⟨-, hstab, row⟩ | ⟨-, hstab, hdies, row⟩
    · have hk : k ≠ 1 := by
        rintro rfl
        obtain rfl : j = 0 := by omega
        exact hleast 1 le_rfl (by omega) (.inr (.inl hsame.symm))
      rw [row.gen, row.grid]
      exact .inl ⟨row.cause, by omega, hK, j, k, by omega, by omega, hsame, rfl⟩
    · rw [row.gen, row.grid]
      exact .inr (.inl ⟨row.cause, hpos, hK, hstab⟩)
    · have hnext : (generation s.grid k).next = Grid.dead := (pop_eq_zero_iff _).1 hdies
      rw [row.gen, row.grid]
      refine .inr (.inr (.inl ⟨row.cause, hpos, hK, fun hdead => hstab ?_, hnext⟩))
      exact hnext.trans hdead.symm
  · exact .inr (.inr (.inr ⟨row.cause, row.gen, row.grid⟩))

/-- Settles O41: the dead grid is its own next grid, with population 0. -/
theorem deadSeedIsStable : Obligations.DeadSeedIsStable := by
  unfold Obligations.DeadSeedIsStable
  intro s hdead
  have hpass : runIter (runInit s) = terminate .stable (scoredPass (runInit s)) :=
    runIter_of_stable (by simp) (by simp) (by rw [runInit_grid, hdead, next_dead])
  refine ⟨_, exec_run_of_first_pass hpass rfl, rfl, rfl, rfl, ?_, rfl, hdead⟩
  rw [respond_score, terminate_score, scoredPass_score, runInit_score, runInit_grid, hdead, next_dead,
    pop_dead]
  rfl

/-- Settles O42: the second run is a run of the grid left, and the last grid before extinction dies at
once. -/
theorem secondRunIsFresh : Obligations.SecondRunIsFresh := by
  unfold Obligations.SecondRunIsFresh
  intro s t u ht hu
  constructor
  · obtain ⟨u', v, hu', hv, hgrid, -, hcause, hgen, hscore, hhcnt, hseen⟩ :=
      runDependsOnGridAlone t { s with grid := t.grid } rfl
    obtain rfl := Host.Outcome.next.inj (hu'.symm.trans hu)
    exact ⟨v, hv, hgrid, hcause, hgen, hscore, hhcnt, hseen⟩
  · intro hext
    obtain ⟨hlive, hnext⟩ : t.grid ≠ Grid.dead ∧ t.grid.next = Grid.dead := by
      rcases runResultsByCause s t ht with ⟨hc, -⟩ | ⟨hc, -⟩ | ⟨-, -, -, hdead⟩ | ⟨hc, -⟩
      · simp [hc] at hext
      · simp [hc] at hext
      · exact hdead
      · simp [hc] at hext
    have hpop : t.grid.next.pop = 0 := by rw [hnext, pop_dead]
    have hmove : t.grid.next ≠ t.grid := fun hsame => hlive (hsame.symm.trans hnext)
    have hpass : runIter (runInit t) = terminate .extinct (scoredPass (runInit t)) :=
      runIter_of_extinct (by simp) (by simp) hmove hpop
    obtain rfl := Host.Outcome.next.inj ((exec_run_of_first_pass hpass rfl).symm.trans hu)
    refine ⟨rfl, rfl, ?_, rfl⟩
    rw [respond_score, terminate_score, scoredPass_score, runInit_grid, hpop, BitVec.add_zero,
      runInit_score_toNat]

/-- Settles O30: the fields by their definition; a population fits the score register. -/
theorem runInitialisation : Obligations.RunInitialisation := by
  unfold Obligations.RunInitialisation
  exact fun s => ⟨rfl, runInit_score_toNat s, rfl, rfl, rfl, rfl, rfl, rfl, rfl, rfl⟩

end Sys2Proof.Machine
end

section
/-! PROOF. The seed loader: the bits of a word, the cells of a seed and the expansion of RUNWORD
(`43_seed_loader.md` R210 to R225, `30_encoding.md` R104). -/

namespace Sys2Proof.Machine

/-! ### The bits and the bytes of a word -/

theorem encodeBits_cons (ch : Byte) (w : List Byte) :
    encodeBits (ch :: w) = ((List.range 8).map fun i => ch.getLsbD (7 - i)) ++ encodeBits w :=
  List.flatMap_cons

theorem length_encodeBits (w : List Byte) : (encodeBits w).length = 8 * w.length := by
  induction w with
  | nil => rfl
  | cons ch w ih =>
    rw [encodeBits_cons, List.length_append, ih, List.length_map, List.length_range, List.length_cons]
    omega

theorem getElem?_encodeBits (w : List Byte) (k : Nat) {i : Nat} (hi : i < 8) :
    (encodeBits w)[8 * k + i]? = w[k]?.map fun ch => ch.getLsbD (7 - i) := by
  induction w generalizing k with
  | nil => rfl
  | cons ch w ih =>
    rw [encodeBits_cons]
    cases k with
    | zero =>
      rw [Nat.mul_zero, Nat.zero_add, List.getElem?_append_left (by simpa using hi)]
      simp [hi]
    | succ k =>
      have hskip : 8 * (k + 1) + i - 8 = 8 * k + i := by omega
      rw [List.getElem?_append_right (by simp; omega), List.length_map, List.length_range, hskip, ih,
        List.getElem?_cons_succ]

theorem encodeBits_replicate_zero (n : Nat) : ∀ b ∈ encodeBits (List.replicate n 0), b = false := by
  simp [encodeBits]

theorem wordBytes_of_wide {cs : List Nat} (h : ∃ p ∈ cs, 256 ≤ p) : wordBytes cs = none := by
  simpa [wordBytes] using h

theorem wordBytes_of_bytes {cs : List Nat} (h : ∀ p ∈ cs, p < 256) :
    wordBytes cs = some (cs.map (BitVec.ofNat 8)) := by
  simpa [wordBytes] using h

/-- A word of bytes leaves nothing to `narrow` (R212). -/
theorem narrowBytes_of_bytes (narrow : Nat → Byte) {cs : List Nat} (h : ∀ p ∈ cs, p < 256) :
    narrowBytes narrow cs = cs.map (BitVec.ofNat 8) :=
  List.map_congr_left fun p hp => if_pos (h p hp)

/-! ### One block row -/

/-- A row of writes, cell by cell: the run of `n` columns from `x` takes the values of `f`. -/
theorem cell_foldl_setCell (f : Nat → Bool) (g : Grid) {y x n : Nat} (hy : y < 40) (hn : x + n ≤ 60)
    (r c : Nat) :
    ((List.range n).foldl (fun g i => g.setCell y (x + i) (f i)) g).cell r c =
      if r = y ∧ x ≤ c ∧ c < x + n then f (c - x) else g.cell r c := by
  induction n with
  | zero => rw [if_neg (by omega)]; rfl
  | succ n ih =>
    rw [List.range_succ, List.foldl_concat, cell_setCell, ih (by omega)]
    by_cases hlast : r = y ∧ c = x + n
    · obtain ⟨rfl, rfl⟩ := hlast
      rw [if_pos (by omega), if_pos (by omega), Nat.add_sub_cancel_left]
    · rw [if_neg (by omega)]
      exact if_congr (by omega) rfl rfl

/-- A block row keeps inside the columns of the grid (R218). -/
theorem startCol_add_rowCount_le (len k : Nat) : startCol len k + rowCount len k ≤ 60 := by
  unfold startCol rowCount
  omega

/-- Placing a block row writes the cells of its own grid row, and nothing if that is no row of the grid
(R218, R219). -/
theorem cell_placeBlockRow (bits : List Bool) (g : Grid) (k : Nat) {r : Nat} (hr : r < 40) (c : Nat) :
    (placeBlockRow bits g k).cell r c =
      if (r : Int) = vstart bits.length + k ∧ startCol bits.length k ≤ c ∧
        c < startCol bits.length k + rowCount bits.length k
      then bits.getD (60 * k + (c - startCol bits.length k)) false else g.cell r c := by
  have hcols := startCol_add_rowCount_le bits.length k
  unfold placeBlockRow
  split
  next y hy =>
    rw [hy, Int.ofNat_eq_natCast]
    by_cases hrow : y < 40
    · rw [if_pos hrow, writeBlockRow, cell_foldl_setCell _ g hrow hcols]
      exact if_congr (by omega) rfl rfl
    · rw [if_neg hrow, if_neg (by omega)]
  next n hn => rw [hn, if_neg (by omega)]

/-- Bit `i` of block row `k` is 1, and its cell is in row `r` and column `c`, for some `i` (R216 to
R218). -/
def PlacesAlive (bits : List Bool) (k r c : Nat) : Prop :=
  ∃ i < rowCount bits.length k, (r : Int) = vstart bits.length + k ∧
    c = startCol bits.length k + i ∧ bits[60 * k + i]? = some true

theorem placesAlive_iff (bits : List Bool) (k r c : Nat) :
    PlacesAlive bits k r c ↔
      ((r : Int) = vstart bits.length + k ∧ startCol bits.length k ≤ c ∧
        c < startCol bits.length k + rowCount bits.length k) ∧
      bits.getD (60 * k + (c - startCol bits.length k)) false = true := by
  have hbit (n : Nat) : bits.getD n false = true ↔ bits[n]? = some true := by
    rw [List.getD_eq_getElem?_getD]
    cases bits[n]? <;> simp
  rw [hbit]
  constructor
  · rintro ⟨i, hi, hrow, rfl, hone⟩
    refine ⟨⟨hrow, Nat.le_add_right _ _, by omega⟩, ?_⟩
    rwa [Nat.add_sub_cancel_left]
  · rintro ⟨⟨hrow, hle, hlt⟩, hone⟩
    exact ⟨c - startCol bits.length k, by omega, hrow, by omega, hone⟩

theorem cell_placeBlockRow_iff {bits : List Bool} {g : Grid} {k r c : Nat} (hr : r < 40)
    (hdead : (r : Int) = vstart bits.length + k → g.cell r c = false) :
    (placeBlockRow bits g k).cell r c = true ↔ g.cell r c = true ∨ PlacesAlive bits k r c := by
  rw [cell_placeBlockRow bits g k hr, placesAlive_iff]
  split_ifs with hin
  · simp [hdead hin.1, hin]
  · simp [hin]

/-! ### The cells of a seed -/

/-- The grid after the first `n` block rows: no two of them share a grid row. -/
theorem cell_foldl_placeBlockRow (bits : List Bool) (n : Nat) {r : Nat} (hr : r < 40) (c : Nat) :
    ((List.range n).foldl (placeBlockRow bits) Grid.dead).cell r c = true ↔
      ∃ k < n, PlacesAlive bits k r c := by
  induction n with
  | zero => simp
  | succ n ih =>
    have hdead : (r : Int) = vstart bits.length + n →
        ((List.range n).foldl (placeBlockRow bits) Grid.dead).cell r c = false := by
      intro hrow
      by_contra hcell
      obtain ⟨k, hk, i, -, hrow', -⟩ := ih.1 (Bool.eq_true_of_not_eq_false hcell)
      omega
    rw [List.range_succ, List.foldl_concat, cell_placeBlockRow_iff hr hdead, ih,
      Nat.exists_lt_succ_right]

theorem cell_seedGrid (bits : List Bool) {r : Nat} (hr : r < 40) (c : Nat) :
    (seedGrid bits).cell r c = true ↔ ∃ k < rowsNeeded bits.length, PlacesAlive bits k r c :=
  cell_foldl_placeBlockRow bits _ hr c

theorem seedGrid_of_no_one {bits : List Bool} (h : ∀ b ∈ bits, b = false) :
    seedGrid bits = Grid.dead := by
  refine grid_ext fun r c hr _ => ?_
  rw [cell_dead, ← Bool.not_eq_true, cell_seedGrid bits hr]
  rintro ⟨k, -, i, -, -, -, hone⟩
  exact Bool.noConfusion (h true (List.mem_of_getElem? hone))

/-- The table of R219. -/
theorem vstart_kept_iff (len k : Nat) (hk : k < rowsNeeded len) :
    (0 ≤ vstart len + k ∧ vstart len + k < 40) ↔
      (rowsNeeded len ≤ 40 ∨ (rowsNeeded len = 41 ∧ k < 40) ∨
        (42 ≤ rowsNeeded len ∧ rowsNeeded len / 2 ≤ k + 20 ∧ k ≤ rowsNeeded len / 2 + 19)) := by
  unfold vstart
  omega

/-! ### The expansion of RUNWORD -/

theorem execAll_append {is : List Instr} {s t : State} (h : execAll is s = .next t)
    (js : List Instr) : execAll (is ++ js) s = execAll js t := by
  induction is generalizing s with
  | nil =>
    obtain rfl := Host.Outcome.next.inj h
    rfl
  | cons i is ih =>
    obtain ⟨u, hu⟩ := exec_next i s
    rw [execAll_cons hu] at h
    rw [List.cons_append, execAll_cons hu, ih h]

theorem exec_run_responses {s t : State} (ht : exec .run s = .next t) :
    t.responses = s.responses ++ [0x00000000] := by
  obtain rfl := Host.Outcome.next.inj ((exec_run s).symm.trans ht)
  rw [respond_responses, runLoop_responses, runInit_responses]
  rfl

/-- RUN and the reads of its results (R104, R171). -/
theorem execAll_run_results {s t : State} (ht : exec .run s = .next t) :
    execAll [.run, .rdreg 2, .rdreg 3] s = .next { t with responses :=
      s.responses ++ [0x00000000, BitVec.ofNat 32 t.gen.toNat, BitVec.ofNat 32 t.score.toNat] } := by
  obtain ⟨hread, -⟩ := rdregCommand
  obtain ⟨-, -, hgen, -⟩ := hread t
  obtain ⟨-, -, -, hscore, -⟩ :=
    hread { t with responses := t.responses ++ [BitVec.ofNat 32 t.gen.toNat] }
  rw [execAll_cons ht, execAll_cons hgen, execAll_cons hscore, execAll, exec_run_responses ht,
    List.append_assoc, List.append_assoc]
  rfl

/-! ### The obligations of `43_seed_loader.md` -/

/-- Settles O53, from `getElem?_encodeBits`, an induction on the word. -/
theorem encodeBitsOrder : Obligations.EncodeBitsOrder := by
  unfold Obligations.EncodeBitsOrder
  refine fun w => ⟨length_encodeBits w, fun k i hk hi => ?_⟩
  rw [getElem?_encodeBits w k hi, List.getElem?_eq_getElem hk]
  rfl

/-- Settles O54: the cells of `cell_seedGrid`, an induction on the block rows placed. -/
theorem seedPlacement : Obligations.SeedPlacement := by
  unfold Obligations.SeedPlacement
  intro bits r c hr _
  simp only [cell_seedGrid bits hr, PlacesAlive, exists_and_left]
  rfl

/-- Settles O55: an alive cell in row `r` comes from a block row that is kept. -/
theorem droppedBlockRows : Obligations.DroppedBlockRows := by
  unfold Obligations.DroppedBlockRows
  refine ⟨vstart_kept_iff, fun bits other hlen hkept => grid_ext fun r c hr _ => ?_⟩
  rw [Bool.eq_iff_iff, cell_seedGrid bits hr, cell_seedGrid other hr, ← hlen]
  refine exists_congr fun k => and_congr_right fun hk => ?_
  unfold PlacesAlive
  rw [← hlen]
  refine exists_congr fun i => and_congr_right fun hi => and_congr_right fun hrow =>
    and_congr_right fun _ => ?_
  have hi60 : i < 60 := hi.trans_le (Nat.min_le_left _ _)
  rw [hkept k i hk hi60 (by omega) (by omega)]

/-- Settles O56: no bit of such a word is 1. -/
theorem zeroWordSeedsDeadGrid : Obligations.ZeroWordSeedsDeadGrid := by
  unfold Obligations.ZeroWordSeedsDeadGrid
  have hzero (n : Nat) : seedImage (List.replicate n 0) = Grid.dead :=
    seedGrid_of_no_one (encodeBits_replicate_zero n)
  exact ⟨hzero 0, hzero⟩

/-- Settles O58, from what `wordBytes` and `narrowBytes` do with such a word. -/
theorem wideCharactersRefused : Obligations.WideCharactersRefused := by
  unfold Obligations.WideCharactersRefused
  refine fun cs => ⟨fun hwide => ?_, fun hbytes => ⟨?_, ?_⟩⟩
  · rw [seedImageOf, wordBytes_of_wide hwide, Option.map_none]
  · rw [seedImageOf, wordBytes_of_bytes hbytes, Option.map_some]
  · rw [seedImageNarrowed, narrowBytes_of_bytes Config.narrow hbytes]

/-- Settles O60: the seed loads from any state, and a run depends on it alone. -/
theorem runWordAnswersResult : Obligations.RunWordAnswersResult := by
  unfold Obligations.RunWordAnswersResult
  intro w s
  obtain ⟨v, hload, hgrid, hresponses⟩ : ∃ v, execAll (loadGrid (seedImage w)) s = .next v ∧
      v.grid = seedImage w ∧
      v.responses = s.responses ++ List.replicate ((seedImage w).pop + 1) 0x00000000 :=
    ⟨_, loadGridLoads (seedImage w) s, rfl, rfl⟩
  obtain ⟨t, u, ht, hu, -, -, hcause, hgen, hscore, -⟩ :=
    runDependsOnGridAlone v { State.reset with grid := seedImage w } hgrid
  refine ⟨_, u, (execAll_append hload _).trans (execAll_run_results ht), hu, hgen, hscore, hcause, ?_⟩
  simp [hresponses, hgen, hscore, List.replicate_succ']

/-- Settles O57: block row 0 is the only one, and bits 1 and 7 of it are 1. -/
theorem seedOfLetterA : Obligations.SeedOfLetterA := by
  unfold Obligations.SeedOfLetterA
  have hlen : (encodeBits [0x41]).length = 8 := length_encodeBits [0x41]
  have hrows : rowsNeeded 8 = 1 := by decide
  have hstart : vstart 8 = 20 := by decide
  have hcount : rowCount 8 0 = 8 := by decide
  have hcol : startCol 8 0 = 26 := by decide
  have hbits : ∀ i < 8, (encodeBits [0x41])[i]? = some true ↔ i = 1 ∨ i = 7 := by decide
  refine ⟨fun r c hr _ => ?_, hlen, hrows, hstart, hcount, hcol, by decide +kernel⟩
  simp only [seedImage, cell_seedGrid _ hr, hlen, hrows, Nat.lt_one_iff, exists_eq_left, PlacesAlive,
    hcount, hstart, hcol, Nat.mul_zero, Nat.zero_add]
  constructor
  · rintro ⟨i, hi, hrow, rfl, hone⟩
    have := (hbits i hi).1 hone
    omega
  · rintro ⟨rfl, rfl | rfl⟩
    · exact ⟨1, by decide, rfl, rfl, (hbits 1 (by decide)).2 (.inl rfl)⟩
    · exact ⟨7, by decide, rfl, rfl, (hbits 7 (by decide)).2 (.inr rfl)⟩

end Sys2Proof.Machine
end

section
/-! PROOF. Command errors: a response with bit 31 set is the error word of a command that did nothing
(`60_exceptions.md` R241). -/

namespace Sys2Proof.Machine

open Sys2Proof.Safety

/-- A successful response has bit 31 clear (R108). -/
theorem okWord_getLsbD_31 (v : Payload) : (okWord v).getLsbD 31 = false := by
  simp [okWord]

/-- A response with bit 31 set comes from `raise` alone (R108, R241). -/
theorem acceptWord_error_response {w r : Word} {s t : State} (ht : acceptWord w s = .next t)
    (hr : t.responses = s.responses ++ [r]) (hbit : r.getLsbD 31 = true) :
    ∃ e, r = errorWord e ∧ t = raise e s := by
  obtain ⟨e, he⟩ | ⟨v, u, hv, -, -, hresp⟩ := acceptWord_responds w s
  · obtain rfl := Host.Outcome.next.inj (he.symm.trans ht)
    rw [raise_responses, List.append_cancel_left_eq, List.singleton_inj] at hr
    exact ⟨e, hr.symm, rfl⟩
  · obtain rfl := Host.Outcome.next.inj (hv.symm.trans ht)
    rw [respond_responses, hresp, List.append_cancel_left_eq, List.singleton_inj] at hr
    rw [← hr, okWord_getLsbD_31] at hbit
    contradiction

/-! ### The obligations of `60_exceptions.md` -/

/-- Settles O8: such a response is an error's, by `acceptWord_error_response`, and `raise` does nothing
but give it. -/
theorem errorsChangeNothing : Obligations.ErrorsChangeNothing := by
  unfold Obligations.ErrorsChangeNothing
  intro s t w r rest hacc ht hr hbit
  rw [step_of_accepts hacc] at ht
  obtain ⟨hready, -⟩ := hacc
  obtain ⟨e, rfl, rfl⟩ := acceptWord_error_response ht hr hbit
  exact ⟨rfl, ⟨e, rfl⟩, hready⟩

end Sys2Proof.Machine
end

section
/-! PROOF. Reset and the run that takes no command: a pass of the sequencer does not read the host's
list, and a reset reads nothing but the lists it keeps (`70_reset_and_hazards.md` R270 to R281). -/

namespace Sys2Proof.Machine

open Sys2Proof.Safety

/-! ### A pass of a run and the host's list -/

/-- The pass of a run does not depend on what the host presents during it (R281). -/
theorem sequencerStep_with_commands {s t : State} (h : sequencerStep s = .next t)
    (c : List HostEvent) :
    sequencerStep { s with commands := c } = .next { t with commands := c } := by
  by_cases hb : RunBounds s
  · have hb' : RunBounds { s with commands := c } := hb
    rw [sequencerStep_of_runBounds hb] at h
    obtain rfl := Host.Outcome.next.inj h
    rw [sequencerStep_of_runBounds hb', runIter_with_commands]
    dsimp only
    split_ifs <;> rfl
  · rw [sequencerStep_of_not_runBounds hb] at h
    contradiction

/-- A pass takes nothing from the host's list. -/
theorem sequencerStep_commands {s t : State} (h : sequencerStep s = .next t) :
    t.commands = s.commands := by
  have hsame : t = { t with commands := s.commands } :=
    Host.Outcome.next.inj (h.symm.trans (sequencerStep_with_commands h s.commands))
  rw [hsame]

/-! ### An edge with `rst` at 1 -/

theorem clockEdge_reset {i : Pins} (h : i.rst = true) (p : PortState) :
    clockEdge i p = { p with block := resetBlock p.block, phase := .ready, rsp := none } :=
  if_pos h

theorem cmdReady_true (p : PortState) : cmdReady true p = false := rfl

/-! ### The obligations of `70_reset_and_hazards.md` -/

/-- Settles O44: with a word presented or with none the step is the sequencer's pass, which does not
read the host's list. -/
theorem noCommandDuringRun : Obligations.NoCommandDuringRun := by
  unfold Obligations.NoCommandDuringRun
  intro s w rest hstep
  have hword : step { s with commands := .command w :: rest } =
      sequencerStep { s with commands := .command w :: rest } := step_of_iterating ⟨hstep, nofun⟩
  have hnone : step { s with commands := [] } = sequencerStep { s with commands := [] } :=
    step_of_iterating ⟨hstep, nofun⟩
  rw [hword, hnone]
  exact ⟨decide_eq_true hstep,
    fun t ht => ⟨sequencerStep_commands ht, sequencerStep_with_commands ht []⟩,
    fun t ht => sequencerStep_with_commands ht (.command w :: rest)⟩

/-- Settles O49: the edge of `clockEdge_reset` leaves a ready port, and a ready port accepts. -/
theorem resetEdge : Obligations.ResetEdge := by
  unfold Obligations.ResetEdge
  intro i p hrst
  rw [clockEdge_reset hrst]
  exact ⟨rfl, rfl, rfl, rfl, cmdReady_true _, cmdReady_true _, (cmdReady_false_iff _).2 rfl,
    fun w => ⟨_, congrArg PortState.phase (clockEdge_accepts rfl)⟩⟩

/-- Settles O47: a reset is met before a run or a word, and is `resetBlock`. -/
theorem resetFromAnyState : Obligations.ResetFromAnyState := by
  unfold Obligations.ResetFromAnyState
  intro s rest hreset
  exact step_of_reset hreset

end Sys2Proof.Machine
end

section
/-! PROOF. The encoding vectors (`95_test_vectors.md` 2.1): words written out from the encodings, read
back through the encoder. -/

namespace Sys2Proof.Machine

/-- Settles O6: each word is the encoding of its command (R102), so it decodes to that command by
`decode_eq_ok_iff`. -/
theorem encodedWordsDecode : Obligations.EncodedWordsDecode := by
  unfold Obligations.EncodedWordsDecode
  simp only [decode_eq_ok_iff]
  exact ⟨rfl, rfl, rfl, rfl, rfl, rfl, rfl, rfl⟩

end Sys2Proof.Machine
end
